-- ==== Sys2Proof/Word.lean ====
section
/-! DEFINITION. The word types of the SCSE: bytes, 16- and 32-bit registers, device addresses, host
register indices (00_scope R6, R7; 10_state R21, R28; 20_memory R60). -/

namespace Sys2Proof

/-- A byte on the wire (R6). -/
abbrev Byte := BitVec 8

/-- A calibration coefficient register (R21). -/
abbrev Half := BitVec 16

/-- A host register (R28). -/
abbrev Word := BitVec 32

/-- A 7-bit device address of the transport (R9, R60 b). -/
abbrev DevAddr := BitVec 7

/-- The 6-bit index of a host register (R28). -/
abbrev HostIdx := BitVec 6

/-- The transport's error classification, already embedded in the 32 bits of ERRKIND: `BusErr` and
`BUSERR_ENC` of R5 with the identity as the embedding. DESIGN CHOICE, log 7, safe: every pair
(`BusErr`, `BUSERR_ENC`) is covered, since a run over it is the run whose error answers carry the
encoded classification. -/
abbrev BusErr := BitVec 32

end Sys2Proof
end

