-- ==== Sys2Proof/Config.lean ====
section
/-! DEFINITION. What an implementation fixes (00_scope R5) and the free values that the spec leaves
unspecified (00_scope R10, 93_implementation_defined U1). -/

namespace Sys2Proof

/-- `OVF_MODE` of R5 and R195: what an operation whose exact result does not fit its width does. -/
inductive OvfMode where
  /-- the wrapped value is delivered -/
  | wrap
  /-- ArithOverflow is raised -/
  | fault
deriving DecidableEq, Repr

/-- The parameters of R5 that the behaviour of the SCSE depends on. A run keeps them (they stand in
the field `params` of State, so that every statement about all states holds for every value of
them; DESIGN CHOICE, log 6, safe). The others of R5: `BusErr`, `BUSERR_ENC` are in Word.lean,
`FLOAT` is `FloatFormat` below, `MS` is the unit in which State's `timer` and `ticks` count, and
`XLEN_T`, `XLEN_P`, `NCOEF`, `CAL_LEN`, `ADC_BITS` are fixed and stand in the types and constants
of the definitions. -/
structure Params where
  /-- OVF_MODE (92 D21) -/
  ovfMode : OvfMode
  /-- NORMAL_MODE_BITS (92 D16) -/
  normalModeBits : BitVec 2
  /-- FILTER_SHIFT (92 D17) -/
  filterShift : Nat
  /-- RESET_WORD (92 D18) -/
  resetWord : Byte
  /-- ST_MEASURING_BIT (92 D19) -/
  stMeasuringBit : Fin 8
  /-- ST_IM_UPDATE_BIT (92 D19) -/
  stImUpdateBit : Fin 8
deriving DecidableEq, Repr

/-- The decided values of R5. Those of NORMAL_MODE_BITS and of the two status bits are the spec's,
from general knowledge (93 G3, G5); log 17. -/
def Params.decided : Params :=
  { ovfMode := .wrap, normalModeBits := 0b11, filterShift := 5, resetWord := 0xB7,
    stMeasuringBit := 3, stImUpdateBit := 0 }

/-- `NCOEF`, `CAL_LEN` of R5. -/
def ncoef : Nat := 12
def calLen : Nat := 24

/-- `FLOAT` of R5 and R235: an IEEE 754 binary format, given by the widths of its exponent field and
of its stored fraction field. -/
structure FloatFormat where
  expBits : Nat
  fracBits : Nat
deriving DecidableEq, Repr

/-- "any IEEE 754 binary format with at least 24 significand bits" (R5): 23 stored fraction bits and
the exponent field of binary32 at least. -/
abbrev FloatFormat.Admitted (f : FloatFormat) : Prop := 8 ≤ f.expBits ∧ 23 ≤ f.fracBits

/-- IEEE 754 binary64 and binary32 (R235). -/
def FloatFormat.binary64 : FloatFormat := ⟨11, 52⟩
def FloatFormat.binary32 : FloatFormat := ⟨8, 23⟩

/-- FREE VALUE (log 10): the 32-bit word that a host read returns where the spec says the value read
is unspecified (R23, R32, R40). Applied to State's counter `freeCtr`. No body: nothing is known of
it. -/
opaque Config.freeRead : Nat → Word

/-- FREE VALUE (log 10): the content of `x[i]` after a BMP_INIT that failed (R262: "`x[0..11]` <-
unspecified"). Applied to State's counter `freeCtr` and to `i`. No body: nothing is known of it. -/
opaque Config.freeCoef : Nat → Nat → Half

end Sys2Proof
end

