-- ==== Sys2Proof/Syntax.lean ====
section
/-! DEFINITION. The instructions (one constructor per row of opcode_table.json), the closed
enumerations of wire commands and BMP280 registers (93 U10), bus transactions (20_memory R61), host
register names (10_state R28), host actions and the host script language (30_encoding R122, R123). -/

namespace Sys2Proof

/-- The 25 rows of the opcode table. No row has an operand (R90): "All operands of a command come
from the configuration registers and from the transport." -/
inductive Instr where
  -- host commands, format CMD8 (R92)
  | bhInit
  | bhRead
  | bmpInit
  | bmpReadT
  | bmpReadP
  | bmpReadId
  | bmpReadStatus
  | bmpReset
  -- BH1750 wire commands, format BH_CMD (R95 to R103)
  | bhPowerDown
  | bhPowerUp
  | bhReset
  | bhContHigh
  | bhContUhigh
  | bhContLow
  | bhOtHigh
  | bhOtUhigh
  | bhOtLow
  -- BMP280 register accesses, formats BMP_RD and BMP_WR (R105 to R112)
  | bmpRegCalib
  | bmpRegId
  | bmpRegReset
  | bmpRegStatus
  | bmpRegCtrl
  | bmpRegConfig
  | bmpRegPress
  | bmpRegTemp
deriving DecidableEq, Repr

/-- The formats of the opcode table's rows (R90). The fifth format of R90, `BH_DATA`, is the two
result bytes of a BH1750 read: data, no row. -/
inductive Format where
  | cmd8
  | bhCmd
  | bmpRd
  | bmpWr
deriving DecidableEq, Repr

/-- Where a byte is read as an instruction: the host's CMD register, the wire to the BH1750, the
wire to the BMP280. "Three kinds of encoding exist and they must not be confused" (30_encoding). -/
inductive Port where
  | host
  | bh1750
  | bmp280
deriving DecidableEq, Repr

/-- The port at which a format is read. -/
def Format.port : Format → Port
  | .cmd8 => .host
  | .bhCmd => .bh1750
  | .bmpRd => .bmp280
  | .bmpWr => .bmp280

/-- The format column of the opcode table. -/
def Instr.format : Instr → Format
  | .bhInit => .cmd8
  | .bhRead => .cmd8
  | .bmpInit => .cmd8
  | .bmpReadT => .cmd8
  | .bmpReadP => .cmd8
  | .bmpReadId => .cmd8
  | .bmpReadStatus => .cmd8
  | .bmpReset => .cmd8
  | .bhPowerDown => .bhCmd
  | .bhPowerUp => .bhCmd
  | .bhReset => .bhCmd
  | .bhContHigh => .bhCmd
  | .bhContUhigh => .bhCmd
  | .bhContLow => .bhCmd
  | .bhOtHigh => .bhCmd
  | .bhOtUhigh => .bhCmd
  | .bhOtLow => .bhCmd
  | .bmpRegCalib => .bmpRd
  | .bmpRegId => .bmpRd
  | .bmpRegReset => .bmpWr
  | .bmpRegStatus => .bmpRd
  | .bmpRegCtrl => .bmpWr
  | .bmpRegConfig => .bmpWr
  | .bmpRegPress => .bmpRd
  | .bmpRegTemp => .bmpRd

/-- The nine BH1750 wire commands (R94; closed, 93 U10). -/
inductive WireCmd where
  | powerDown
  | powerUp
  | reset
  | contHigh
  | contUhigh
  | contLow
  | otHigh
  | otUhigh
  | otLow
deriving DecidableEq, Repr

/-- The wire command as an instruction. -/
def WireCmd.instr : WireCmd → Instr
  | .powerDown => .bhPowerDown
  | .powerUp => .bhPowerUp
  | .reset => .bhReset
  | .contHigh => .bhContHigh
  | .contUhigh => .bhContUhigh
  | .contLow => .bhContLow
  | .otHigh => .bhOtHigh
  | .otUhigh => .bhOtUhigh
  | .otLow => .bhOtLow

/-- The eight BMP280 register locations (R104; closed, 93 U10). -/
inductive BmpReg where
  | calib
  | id
  | reset
  | status
  | ctrl
  | config
  | press
  | temp
deriving DecidableEq, Repr

/-- The register access as an instruction. -/
def BmpReg.instr : BmpReg → Instr
  | .calib => .bmpRegCalib
  | .id => .bmpRegId
  | .reset => .bmpRegReset
  | .status => .bmpRegStatus
  | .ctrl => .bmpRegCtrl
  | .config => .bmpRegConfig
  | .press => .bmpRegPress
  | .temp => .bmpRegTemp

/-- The three transport operations (R9, R61): `BusWrite(a, bytes)`, `BusRead(a, n)`,
`BusWriteRead(a, bytes, n)`. The first byte of a list is the first on the wire (R6). -/
inductive Txn where
  | write (a : DevAddr) (bytes : List Byte)
  | read (a : DevAddr) (n : Nat)
  | writeRead (a : DevAddr) (bytes : List Byte) (n : Nat)
deriving DecidableEq, Repr

/-- The device a transaction goes to. -/
def Txn.dev : Txn → DevAddr
  | .write a _ => a
  | .read a _ => a
  | .writeRead a _ _ => a

/-- The bytes a transaction sends. -/
def Txn.sent : Txn → List Byte
  | .write _ bytes => bytes
  | .read _ _ => []
  | .writeRead _ bytes _ => bytes

/-- How many bytes an `ok` answer to the transaction brings: "the read buffer is filled entirely
(all `n` bytes)" (R61), none for `BusWrite`. -/
def Txn.rxLen : Txn → Nat
  | .write _ _ => 0
  | .read _ n => n
  | .writeRead _ _ n => n

/-- What the transport does with one transaction (R61, R79): it returns `ok` with bytes, or `err(k)`, or
this call never returns (R258). -/
inductive Answer where
  | ok (bytes : List Byte)
  | err (k : BusErr)
  | never
deriving DecidableEq, Repr

/-- The named host registers (R28). -/
inductive HostReg where
  | cmd
  | status
  | errInfo
  | errKind
  | bhCfg
  | bmpCfg
  | lux
  | temp
  | press
  | tFine
  | aux
  | dig (i : Fin 12)
deriving DecidableEq, Repr

/-- One action of the host, or its leave for the SCSE to move (log 5). `write` and `read` are whole
register accesses (R28), `rst` applies RST (R270); `pass` lets the SCSE take one step; `await` is the
wait of a script's `CMD` (R122): it stays while `BUSY = 1`, the SCSE taking the steps. -/
inductive HostAct where
  | write (i : HostIdx) (v : Word)
  | read (i : HostIdx)
  | rst
  | pass
  | await
deriving DecidableEq, Repr

/-- The four statements of the host script language (R122). -/
inductive Stmt where
  | wr (r : HostReg) (v : Word)
  | cmd (i : Instr)
  | rd (r : HostReg)
  | rst
deriving DecidableEq, Repr

/-- The capability interface names of R123, which stand for short scripts. -/
inductive Capability where
  | lightRead
  | temperatureRead
  | pressureRead
  | constructBh1750 (cfg : Word)
  | constructBmp280 (cfg : Word)
deriving DecidableEq, Repr

end Sys2Proof
end

