-- ==== Sys2Proof/WellFormed.lean ====
section
/-! DEFINITION. Which syntax is well-formed. An instruction has no operand (R90), so every one is; a
transaction must be one of the transport contract's (R61) and, to be one the SCSE may issue, one of
the table of R70; a script's `CMD` names a host command (R122). -/

namespace Sys2Proof

/-- Every instruction is well-formed: no row of the table has an operand (R90). A match without a
wildcard, so that a new constructor has to be placed here. -/
def Instr.wf : Instr → Bool
  | .bhInit | .bhRead => true
  | .bmpInit | .bmpReadT | .bmpReadP | .bmpReadId | .bmpReadStatus | .bmpReset => true
  | .bhPowerDown | .bhPowerUp | .bhReset => true
  | .bhContHigh | .bhContUhigh | .bhContLow => true
  | .bhOtHigh | .bhOtUhigh | .bhOtLow => true
  | .bmpRegCalib | .bmpRegId | .bmpRegReset | .bmpRegStatus => true
  | .bmpRegCtrl | .bmpRegConfig | .bmpRegPress | .bmpRegTemp => true

/-- A host command of R92, as against a wire row of the table. -/
def Instr.isHost (i : Instr) : Bool := decide (i.format = .cmd8)

/-- The transport contract of R61: at least one byte is sent by a write, at least one received by a
read. -/
def Txn.wf : Txn → Bool
  | .write _ bytes => !bytes.isEmpty
  | .read _ n => decide (1 ≤ n)
  | .writeRead _ bytes n => !bytes.isEmpty && decide (1 ≤ n)

/-- The two device addresses of each sensor (R62). -/
def isBhAddr (a : DevAddr) : Bool := a == 0x23#7 || a == 0x5C#7
def isBmpAddr (a : DevAddr) : Bool := a == 0x76#7 || a == 0x77#7

/-- The seven BH1750 bytes that commands of the SCSE send (R120, R95, R98 to R103). -/
def isSentWireByte (c : Byte) : Bool :=
  c == 0x00#8 || c == 0x10#8 || c == 0x11#8 || c == 0x13#8 || c == 0x20#8 || c == 0x21#8 || c == 0x23#8

/-- The complete list of transactions the SCSE can issue (R70): device, bytes sent, bytes received. -/
def Txn.listed : Txn → Bool
  | .write a [c] => isBhAddr a && isSentWireByte c
  | .read a n => isBhAddr a && n == 2
  | .write a [r, _] => isBmpAddr a && (r == 0xF4#8 || r == 0xF5#8 || r == 0xE0#8)
  | .writeRead a [r] n =>
    isBmpAddr a && ((r == 0x88#8 && n == 24) || (r == 0xFA#8 && n == 3) || (r == 0xF7#8 && n == 3) ||
      (r == 0xD0#8 && n == 1) || (r == 0xF3#8 && n == 1))
  | .write _ _ => false
  | .writeRead _ _ _ => false

/-- A script statement is well-formed when its `CMD` names one of the eight host commands (R122:
"writes the command word of the mnemonic (rule R92)"). -/
def Stmt.wf : Stmt → Bool
  | .wr _ _ => true
  | .cmd i => i.isHost
  | .rd _ => true
  | .rst => true

end Sys2Proof
end

