-- ==== Sys2Proof/Decode.lean ====
section
/-! DEFINITION. Decoding and encoding (30_encoding R90 to R112). The opcode table is a list of rows
with match and mask, as opcode_table.json has it; a byte is decoded at a port, because two bytes
(0x01, 0x07) stand in two formats (log 11). -/

namespace Sys2Proof

/-- Why a byte is no instruction at a port. -/
inductive Reject where
  /-- there is no byte -/
  | noByte
  /-- CMD8 with bits 7:4 not zero (R91, R93) -/
  | zeroField
  /-- CMD8 with an unassigned OPC (R93) -/
  | unassignedOpcode
  /-- no wire command of R94 -/
  | unknownWireByte
  /-- no register address of R104 -/
  | unknownRegister
deriving DecidableEq, Repr

/-- A row of the opcode table: `b` is the row's instruction when `b & mask = value`. -/
structure OpRow where
  instr : Instr
  value : Byte
  mask : Byte
deriving DecidableEq, Repr

/-- The host commands (R92). -/
def hostRows : List OpRow :=
  [ ⟨.bhInit, 0x01, 0xFF⟩, ⟨.bhRead, 0x02, 0xFF⟩, ⟨.bmpInit, 0x04, 0xFF⟩, ⟨.bmpReadT, 0x05, 0xFF⟩,
    ⟨.bmpReadP, 0x06, 0xFF⟩, ⟨.bmpReadId, 0x07, 0xFF⟩, ⟨.bmpReadStatus, 0x08, 0xFF⟩,
    ⟨.bmpReset, 0x09, 0xFF⟩ ]

/-- The BH1750 wire commands (R95 to R103). -/
def bhRows : List OpRow :=
  [ ⟨.bhPowerDown, 0x00, 0xFF⟩, ⟨.bhPowerUp, 0x01, 0xFF⟩, ⟨.bhReset, 0x07, 0xFF⟩,
    ⟨.bhContHigh, 0x10, 0xFF⟩, ⟨.bhContUhigh, 0x11, 0xFF⟩, ⟨.bhContLow, 0x13, 0xFF⟩,
    ⟨.bhOtHigh, 0x20, 0xFF⟩, ⟨.bhOtUhigh, 0x21, 0xFF⟩, ⟨.bhOtLow, 0x23, 0xFF⟩ ]

/-- The BMP280 registers (R105 to R112). -/
def bmpRows : List OpRow :=
  [ ⟨.bmpRegCalib, 0x88, 0xFF⟩, ⟨.bmpRegId, 0xD0, 0xFF⟩, ⟨.bmpRegReset, 0xE0, 0xFF⟩,
    ⟨.bmpRegStatus, 0xF3, 0xFF⟩, ⟨.bmpRegCtrl, 0xF4, 0xFF⟩, ⟨.bmpRegConfig, 0xF5, 0xFF⟩,
    ⟨.bmpRegPress, 0xF7, 0xFF⟩, ⟨.bmpRegTemp, 0xFA, 0xFF⟩ ]

/-- The rows read at a port. -/
def rowsAt : Port → List OpRow
  | .host => hostRows
  | .bh1750 => bhRows
  | .bmp280 => bmpRows

/-- `b` fits the row. -/
def OpRow.fits (r : OpRow) (b : Byte) : Bool := (b &&& r.mask) == r.value

/-- The instruction of the first of `rows` that `b` fits. -/
def findRow (b : Byte) : List OpRow → Option Instr
  | [] => none
  | r :: rs => if r.fits b then some r.instr else findRow b rs

/-- Why `b`, which fits no row, is rejected at a port. -/
def rejectReason : Port → Byte → Reject
  | .host, b => if b.extractLsb' 4 4 = 0#4 then .unassignedOpcode else .zeroField
  | .bh1750, _ => .unknownWireByte
  | .bmp280, _ => .unknownRegister

/-- The decoder: the first byte is the instruction (R91, R94, R104), what follows is handed back (the
bits 31:8 of a CMD write, which are ignored, R29; the data bytes of a frame, R104). -/
def decode (p : Port) : List Byte → Except Reject (Instr × List Byte)
  | [] => .error .noByte
  | b :: rest =>
    match findRow b (rowsAt p) with
    | some i => .ok (i, rest)
    | none => .error (rejectReason p b)

/-- The instruction that a single byte is at a port, if any. -/
def decodeByte (p : Port) (b : Byte) : Option Instr := findRow b (rowsAt p)

/-- The command word of a value written to CMD: `w[7:0]` (R29, R91). -/
def cmdByte (w : Word) : Byte := w.extractLsb' 0 8

/-- The command that the value written to CMD stands for; `none` is an illegal command (R93). -/
def decodeCmd (w : Word) : Option Instr := decodeByte .host (cmdByte w)

/-- The command whose opcode is latched in SEQ (R26). -/
def decodeOp (op : BitVec 4) : Option Instr := decodeByte .host (op.zeroExtend 8)

/-- The byte of each instruction: the command word (R92), the wire byte (R95 to R103), the register
address (R105 to R112). -/
def encodeByte : Instr → Byte
  | .bhInit => 0x01
  | .bhRead => 0x02
  | .bmpInit => 0x04
  | .bmpReadT => 0x05
  | .bmpReadP => 0x06
  | .bmpReadId => 0x07
  | .bmpReadStatus => 0x08
  | .bmpReset => 0x09
  | .bhPowerDown => 0x00
  | .bhPowerUp => 0x01
  | .bhReset => 0x07
  | .bhContHigh => 0x10
  | .bhContUhigh => 0x11
  | .bhContLow => 0x13
  | .bhOtHigh => 0x20
  | .bhOtUhigh => 0x21
  | .bhOtLow => 0x23
  | .bmpRegCalib => 0x88
  | .bmpRegId => 0xD0
  | .bmpRegReset => 0xE0
  | .bmpRegStatus => 0xF3
  | .bmpRegCtrl => 0xF4
  | .bmpRegConfig => 0xF5
  | .bmpRegPress => 0xF7
  | .bmpRegTemp => 0xFA

/-- The encoder: every instruction is one byte (R90, R124). -/
def encode (i : Instr) : List Byte := [encodeByte i]

/-- The byte of a wire command (R94). -/
def WireCmd.byte (c : WireCmd) : Byte := encodeByte c.instr

/-- The address of a BMP280 register (R104). -/
def BmpReg.addr (r : BmpReg) : Byte := encodeByte r.instr

/-- The 4-bit opcode OPC of a host command (R91). -/
def opcodeOf (i : Instr) : BitVec 4 := (encodeByte i).extractLsb' 0 4

/-- The command word of a host command, as a value to write to CMD (R122). -/
def commandWord (i : Instr) : Word := (encodeByte i).zeroExtend 32

/-- The bytes of a table word, first byte first: byte `k` is bits `8k+7:8k`. -/
def tableBytes (nbits w : Nat) : List Byte :=
  (List.range (nbits / 8)).map fun k => BitVec.ofNat 8 (w / 2 ^ (8 * k))

/-- The decoder on a word numbered as opcode_table.json numbers it. The table does not say at which
port a row stands, so the ports are tried in the table's order: host, BH1750, BMP280. The rows
BH_POWER_UP (0x01) and BH_RESET (0x07) have the bytes of the host commands BH_INIT and BMP_READ_ID
and are read as those here; at their own port `decode .bh1750` reads them (log 11). -/
def decodeTableWord (nbits w : Nat) : Option Instr :=
  match decode .host (tableBytes nbits w) with
  | .ok (i, _) => some i
  | .error _ =>
    match decode .bh1750 (tableBytes nbits w) with
    | .ok (i, _) => some i
    | .error _ =>
      match decode .bmp280 (tableBytes nbits w) with
      | .ok (i, _) => some i
      | .error _ => none

end Sys2Proof
end

