-- ==== Sys2Proof/Machine/State.lean ====
section
/-! DEFINITION. The state of the SCSE (10_state R20 to R45), the model's own fields for what the spec
makes a parameter of the step relation (R44), and the state after reset. -/

namespace Sys2Proof.Machine

/-- Why the machine stops. No run from reset reaches any of these (the invariant of Safety.lean
excludes them): each stands for a state that no rule of the spec gives a step. All are safe: the
model stops where the spec says nothing. -/
inductive Fault where
  /-- Raised by a command's meaning, and by a step, when SEQ holds an opcode that is no command or a
  step number that the command does not have (R26: "no sequence has more than 5 steps"). Safe. -/
  | sequencerState
  /-- Raised by BH_READ at s0 in one-time mode when `BH_CFG.RES = 0b10`, for which TrigSelect is "Not
  defined" (R131); R120 says that BH_READ never meets it. Safe. -/
  | noWireCommand
  /-- Raised by the delay step of BhSend when `c_lat` is none of the nine wire commands, for which
  SettleMs is "Not defined" (R132). Safe. -/
  | noSettleDelay
deriving DecidableEq, Repr

/-- What the model gives no meaning. -/
inductive Refusal where
  /-- An instruction whose arm of `exec` has no meaning yet. Raised by no arm now. Safe. -/
  | notModelled (mnemonic : String)
  /-- Raised by a bus step whose next transport answer brings another number of bytes than was asked
  for: no answer that the contract of R61 allows ("the transport never returns fewer bytes than
  asked"). Safe: such an input is outside the set of inputs the spec speaks of (log 3). -/
  | transportContract
deriving DecidableEq, Repr

/-- What a step answers. -/
abbrev Result (σ : Type) := Host.Outcome σ Fault Refusal

/-- The exceptions (R240). -/
inductive Exc where
  | transportFailure (k : BusErr)
  | illegalCommand
  | notReady
  | alreadyInit
  | illegalConfig
  | arithOverflow
deriving DecidableEq, Repr

/-- The twelve general registers `x[0..11]` under their aliases (R21): the calibration coefficients. -/
structure Calib where
  digT1 : Half
  digT2 : Half
  digT3 : Half
  digP1 : Half
  digP2 : Half
  digP3 : Half
  digP4 : Half
  digP5 : Half
  digP6 : Half
  digP7 : Half
  digP8 : Half
  digP9 : Half
deriving DecidableEq, Repr

/-- The sequencer step register SEQ (R26): the opcode of the command in progress and its step. -/
structure Seq where
  op : BitVec 4
  step : BitVec 3
deriving DecidableEq, Repr

/-- IDLE, "encoded `op = 0`, `step = 0`" (R26). -/
def Seq.idle : Seq := ⟨0, 0⟩

/-- The bytes of an ADC frame, in the order received (R43 c, d; R118). -/
structure Frame3 where
  b0 : Byte
  b1 : Byte
  b2 : Byte
deriving DecidableEq, Repr

/-- The bytes of a BH1750 result, in the order received (R43 e; R119). -/
structure Frame2 where
  b0 : Byte
  b1 : Byte
deriving DecidableEq, Repr

/-- What is seen on the bus (model's own, log 15): a transaction with its answer, a Delay that has
elapsed with its label `n` (R253), and a reset with the transaction it cut, if one was in flight
(R270). -/
inductive BusEvent where
  | txn (t : Txn) (a : Answer)
  | delay (n : Nat)
  | reset (cut : Option Txn)
deriving DecidableEq, Repr

structure State where
  /-- `x[0..11]` (R21) -/
  x : Calib
  /-- T_FINE (R24) -/
  tFine : Word
  /-- SEQ, `pc` (R26) -/
  seq : Seq
  /-- the five flags (R27) -/
  busy : Bool
  done : Bool
  err : Bool
  bhReady : Bool
  bmpReady : Bool
  /-- ERRINFO (R31), ERRKIND (R32) -/
  errInfo : Word
  errKind : Word
  /-- BH_CFG (R33), BMP_CFG (R34) -/
  bhCfg : Word
  bmpCfg : Word
  /-- LUX (R35), TEMP (R36), PRESS (R37), AUX (R39) -/
  lux : Word
  temp : Word
  press : Word
  aux : Word
  /-- the hidden latches (R43 b to f) -/
  cLat : Byte
  adcTBuf : Frame3
  adcPBuf : Frame3
  bhBuf : Frame2
  auxBuf : Byte
  timer : Nat
  /-- model's own: the transaction issued and not yet answered (log 2) -/
  inflight : Option Txn
  /-- model's own: the parameters of R5 (log 6) -/
  params : Params
  /-- model's own: the host's pending actions, next first (log 5) -/
  host : List HostAct
  /-- model's own: the transport's answers, one for each call, next first (log 2) -/
  answers : List Answer
  /-- model's own: milliseconds passed at each look at the settle timer, next first (log 4) -/
  ticks : List Nat
  /-- model's own: what was seen on the bus, newest first (log 15) -/
  trace : List BusEvent
  /-- model's own: what the host has read, newest first (log 15) -/
  reads : List (HostIdx × Word)
  /-- model's own: how many free values have been drawn (log 10) -/
  freeCtr : Nat
deriving DecidableEq, Repr

/-- All coefficients zero: the value at reset, which R45 leaves unspecified. DESIGN CHOICE, log 1. -/
def Calib.zero : Calib := ⟨0, 0, 0, 0, 0, 0, 0, 0, 0, 0, 0, 0⟩

/-- The state after reset (R45). Where R45 says "unspecified" the value is zero: DESIGN CHOICE, log 1,
unsafe. The model's own fields: log 2, 4, 5, 6, 10, 15. -/
def State.reset : State :=
  { x := Calib.zero, tFine := 0, seq := Seq.idle,
    busy := false, done := false, err := false, bhReady := false, bmpReady := false,
    errInfo := 0, errKind := 0, bhCfg := 0, bmpCfg := 0,
    lux := 0, temp := 0, press := 0, aux := 0,
    cLat := 0, adcTBuf := ⟨0, 0, 0⟩, adcPBuf := ⟨0, 0, 0⟩, bhBuf := ⟨0, 0⟩, auxBuf := 0, timer := 0,
    inflight := none, params := Params.decided, host := [], answers := [], ticks := [],
    trace := [], reads := [], freeCtr := 0 }

/-- Whose turn a step is, with the state it starts from: the host has acted, or the SCSE moves. -/
inductive Turn where
  | host (s : State)
  | scse (s : State)
deriving DecidableEq, Repr

/-- What SEQ selects: nothing (IDLE), a command, or no command at all. -/
inductive Fetched where
  | idle
  | run (i : Instr)
  | illegal
deriving DecidableEq, Repr

end Sys2Proof.Machine
end

