-- ==== Sys2Proof/Machine/Operands.lean ====
section
/-! DEFINITION. The operands: fields of the configuration registers (R33, R34), device addresses
(R62), the assembled bytes sent (R113 to R115) and the layouts of the bytes received (R116 to R119). -/

namespace Sys2Proof.Machine

/-- `BH_CFG.RES` (R33). -/
def bhRes (cfg : Word) : BitVec 2 := cfg.extractLsb' 1 2

/-- `BH_CFG.OP`: true is one-time, false is continuous (R33). -/
def bhOneTime (cfg : Word) : Bool := cfg.getLsbD 3

/-- `BhAddr` (R62). -/
def bhAddr (cfg : Word) : DevAddr := if cfg.getLsbD 0 then 0b1011100 else 0b0100011

/-- `BmpAddr` (R62). -/
def bmpAddr (cfg : Word) : DevAddr := if cfg.getLsbD 0 then 0x77 else 0x76

/-- `BMP_CFG.OSRS_T`, `OSRS_P`, `FILTER`, `T_SB` (R34). -/
def osrsT (cfg : Word) : BitVec 3 := cfg.extractLsb' 1 3
def osrsP (cfg : Word) : BitVec 3 := cfg.extractLsb' 4 3
def filterCode (cfg : Word) : BitVec 3 := cfg.extractLsb' 7 3
def tSb (cfg : Word) : BitVec 3 := cfg.extractLsb' 10 3

/-- The bits of BH_CFG and BMP_CFG that are stored; the others read as zero (R33, R34). -/
def bhCfgMask : Word := 0x0000000F
def bmpCfgMask : Word := 0x00001FFF

/-- `CmdSelect(OP, RES)` (R130); not defined for `RES = 0b10`. -/
def cmdSelect (oneTime : Bool) (res : BitVec 2) : Option WireCmd :=
  if res = 0b10#2 then none
  else if oneTime then some .powerDown
  else if res = 0b00#2 then some .contHigh
  else if res = 0b01#2 then some .contUhigh
  else some .contLow

/-- `TrigSelect(RES)` (R131); not defined for `RES = 0b10`. -/
def trigSelect (res : BitVec 2) : Option WireCmd :=
  if res = 0b10#2 then none
  else if res = 0b00#2 then some .otHigh
  else if res = 0b01#2 then some .otUhigh
  else some .otLow

/-- `SettleMs(c)` in milliseconds (R132); "Not defined for any other byte". -/
def settleMs (c : Byte) : Option Nat :=
  if c = 0x00#8 then some 1
  else if c = 0x01#8 then some 1
  else if c = 0x07#8 then some 1
  else if c = 0x10#8 then some 180
  else if c = 0x11#8 then some 180
  else if c = 0x13#8 then some 24
  else if c = 0x20#8 then some 24
  else if c = 0x21#8 then some 24
  else if c = 0x23#8 then some 24
  else none

/-- The settle delay of BMP_INIT step s1, in milliseconds (R166, R275). -/
def bmpInitDelay : Nat := 2

/-- `BhDecode([b0, b1]) = (b0 << 8) | b1` (R133, R119). -/
def bhDecode (f : Frame2) : BitVec 16 := (f.b0.zeroExtend 16 <<< 8) ||| f.b1.zeroExtend 16

/-- `AdcUnpack([b0, b1, b2]) = (b0 << 12) | (b1 << 4) | (b2 >> 4)` (R162, R118). -/
def adcUnpack (f : Frame3) : BitVec 20 :=
  (f.b0.zeroExtend 20 <<< 12) ||| (f.b1.zeroExtend 20 <<< 4) ||| (f.b2.zeroExtend 20 >>> 4)

/-- Coefficient `i` of the calibration block `k`: `k[2i+1] ++ k[2i]` (R65, R117, R161). -/
def calField (k : List Byte) (i : Nat) : Half := k.getD (2 * i + 1) 0 ++ k.getD (2 * i) 0

/-- `CalParse(k[0..23])` (R161). -/
def calParse (k : List Byte) : Calib :=
  { digT1 := calField k 0, digT2 := calField k 1, digT3 := calField k 2,
    digP1 := calField k 3, digP2 := calField k 4, digP3 := calField k 5, digP4 := calField k 6,
    digP5 := calField k 7, digP6 := calField k 8, digP7 := calField k 9, digP8 := calField k 10,
    digP9 := calField k 11 }

/-- `x[i]` (R8, R21). -/
def Calib.get (x : Calib) (i : Fin 12) : Half :=
  match i.val with
  | 0 => x.digT1
  | 1 => x.digT2
  | 2 => x.digT3
  | 3 => x.digP1
  | 4 => x.digP2
  | 5 => x.digP3
  | 6 => x.digP4
  | 7 => x.digP5
  | 8 => x.digP6
  | 9 => x.digP7
  | 10 => x.digP8
  | _ => x.digP9

/-- `CtrlPack(OSRS_T, OSRS_P) = (OSRS_T << 5) | (OSRS_P << 2) | NORMAL_MODE_BITS` (R163, R113). -/
def ctrlPack (p : Params) (t : BitVec 3) (q : BitVec 3) : Byte :=
  (t.zeroExtend 8 <<< 5) ||| (q.zeroExtend 8 <<< 2) ||| p.normalModeBits.zeroExtend 8

/-- `ConfigPack(T_SB, FILTER) = ((T_SB << 5) | (FILTER << FILTER_SHIFT)) & 0xFF` (R164, R114). -/
def configPack (p : Params) (sb : BitVec 3) (filter : BitVec 3) : Byte :=
  (sb.zeroExtend 8 <<< 5) ||| (filter.zeroExtend 8 <<< p.filterShift)

/-- `StatusDecode(s) = (s[ST_MEASURING_BIT], s[ST_IM_UPDATE_BIT])` (R165, R116). -/
def statusDecode (p : Params) (s : Byte) : Bool × Bool :=
  (s.getLsbD p.stMeasuringBit.val, s.getLsbD p.stImUpdateBit.val)

/-- The control byte and the config byte that BMP_INIT writes (R166). -/
def ctrlByte (p : Params) (cfg : Word) : Byte := ctrlPack p (osrsT cfg) (osrsP cfg)
def configByte (p : Params) (cfg : Word) : Byte := configPack p (tSb cfg) (filterCode cfg)

/-- The bytes of a received frame. -/
def frame3 (bs : List Byte) : Frame3 := ⟨bs.getD 0 0, bs.getD 1 0, bs.getD 2 0⟩
def frame2 (bs : List Byte) : Frame2 := ⟨bs.getD 0 0, bs.getD 1 0⟩
def frame1 (bs : List Byte) : Byte := bs.getD 0 0

end Sys2Proof.Machine
end

