-- ==== Sys2Proof/Machine/Flags.lean ====
section
/-! DEFINITION. The status words: STATUS (R30), ERRINFO (R31), AUX (R39), the exception codes (R240)
and the configuration locks (R42). The compensation arithmetic sets no condition codes (R27). -/

namespace Sys2Proof.Machine

/-- A flag as a bit of a 32-bit word. -/
def flagAt (b : Bool) (n : Nat) : Word := (BitVec.ofBool b).zeroExtend 32 <<< n

/-- STATUS: bit 0 BUSY, bit 1 DONE, bit 2 ERR, bit 3 BH_READY, bit 4 BMP_READY (R30). -/
def statusWord (s : State) : Word :=
  flagAt s.busy 0 ||| flagAt s.done 1 ||| flagAt s.err 2 ||| flagAt s.bhReady 3 ||| flagAt s.bmpReady 4

/-- The code of an exception in `ERRINFO.ERR_CODE` (R240). -/
def Exc.code : Exc → BitVec 3
  | .transportFailure _ => 1
  | .illegalCommand => 2
  | .notReady => 3
  | .alreadyInit => 4
  | .illegalConfig => 5
  | .arithOverflow => 6

/-- ERRINFO: bits 2:0 ERR_CODE, bit 3 zero, bits 7:4 ERR_OP, the rest zero (R31). -/
def errInfoWord (op : BitVec 4) (code : BitVec 3) : Word :=
  (op.zeroExtend 32 <<< 4) ||| code.zeroExtend 32

/-- `ERRINFO.ERR_CODE` and `ERRINFO.ERR_OP` (R31). -/
def errCode (w : Word) : BitVec 3 := w.extractLsb' 0 3
def errOp (w : Word) : BitVec 4 := w.extractLsb' 4 4

/-- ERRKIND after an exception: written by TransportFailure only (R32, R248). -/
def errKindAfter (e : Exc) (old : Word) : Word :=
  match e with
  | .transportFailure k => k
  | .illegalCommand => old
  | .notReady => old
  | .alreadyInit => old
  | .illegalConfig => old
  | .arithOverflow => old

/-- AUX after BMP_READ_ID: RAW, with MEASURING and IM_UPDATE zero (R39, R169). -/
def auxOfId (b : Byte) : Word := b.zeroExtend 32

/-- AUX after BMP_READ_STATUS: RAW, bit 8 MEASURING, bit 9 IM_UPDATE (R39, R170). -/
def auxOfStatus (p : Params) (b : Byte) : Word :=
  b.zeroExtend 32 ||| flagAt (statusDecode p b).1 8 ||| flagAt (statusDecode p b).2 9

/-- The locks of BH_CFG and BMP_CFG (R42). -/
def bhCfgLocked (s : State) : Bool := s.bhReady || s.busy
def bmpCfgLocked (s : State) : Bool := s.bmpReady || s.busy

end Sys2Proof.Machine
end

