-- ==== Sys2Proof/Machine/Ops.lean ====
section
/-! DEFINITION. The shared operations of the step sequences: advancing SEQ (R26), `done` (R10),
taking an exception, `raise` (R248, R262), the bus call with `?` (R10, R61, R79, R258), `Delay`
(R253), the bus steps over them (R63, R64, R134), accepting a command (R29) and the fetch from SEQ. -/

namespace Sys2Proof.Machine

/-- `pc <- (op, step + 1)`, the default end of a step (R26). The settle timer starts from zero in the
step entered, should that be a Delay (R253: "starts a count when its step begins"). -/
def advance (s : State) : State :=
  { s with seq := ⟨s.seq.op, s.seq.step + 1⟩, timer := 0 }

/-- `pc <- (op, k)` (R26). -/
def jumpTo (k : BitVec 3) (s : State) : State :=
  { s with seq := ⟨s.seq.op, k⟩, timer := 0 }

/-- `done`: `BUSY <- 0`, `DONE <- 1`, `pc <- IDLE` (R10). -/
def finish (s : State) : State :=
  { s with busy := false, done := true, seq := Seq.idle }

/-- The twelve unspecified coefficients after a failed construction: FREE VALUES (R262, log 10). -/
def freeCalib (n : Nat) : Calib :=
  { digT1 := Config.freeCoef n 0, digT2 := Config.freeCoef n 1, digT3 := Config.freeCoef n 2,
    digP1 := Config.freeCoef n 3, digP2 := Config.freeCoef n 4, digP3 := Config.freeCoef n 5,
    digP4 := Config.freeCoef n 6, digP5 := Config.freeCoef n 7, digP6 := Config.freeCoef n 8,
    digP7 := Config.freeCoef n 9, digP8 := Config.freeCoef n 10, digP9 := Config.freeCoef n 11 }

/-- A BMP_INIT is constructing: it is the command in progress and BMP_READY is 0. -/
def constructingBmp (s : State) : Bool := s.seq.op == opcodeOf .bmpInit && !s.bmpReady

/-- The side effect of R262: when a construction of the BMP280 driver fails, `x[0..11] <-
unspecified`. Not when BMP_INIT raises AlreadyInit, which leaves the driver usable and `x[]`
unchanged (R244, vector V99). DEDUCED, log 9. -/
def dropCalib (s : State) : State :=
  if constructingBmp s then { s with x := freeCalib s.freeCtr, freeCtr := s.freeCtr + 1 } else s

/-- TAKING AN EXCEPTION, `raise E(info)` (R248), with the opcode that ERR_OP records: ERR, ERRINFO,
ERRKIND for a transport failure, BUSY, DONE, and SEQ to IDLE; nothing else. There is no handler, no
vector and no saved state. -/
def raiseWith (op : BitVec 4) (e : Exc) (s : State) : State :=
  { s with
    err := true
    errInfo := errInfoWord op e.code
    errKind := errKindAfter e s.errKind
    busy := false
    done := true
    seq := Seq.idle }

/-- `raise E(info)` in a step of the command in progress (R248), with the side effect of R262. -/
def raise (e : Exc) (s : State) : State := raiseWith s.seq.op e (dropCalib s)

/-- THE RETURN FROM AN EXCEPTION is the host's acknowledgement: "its next accepted CMD write, which
clears DONE, ERR and ERRINFO" (R250, R29); nothing is restored because nothing was saved. ERRKIND is
not cleared (R32). -/
def acknowledge (s : State) : State :=
  { s with done := false, err := false, errInfo := 0 }

/-- An accepted write of `w` to CMD (R29): the acknowledgement, `BUSY <- 1`, and the command word
decoded: SEQ to step s0 of the command, or IllegalCommand raised in this same step with
`ERR_OP = w[3:0]` (R242, R93). -/
def accept (w : Word) (s : State) : State :=
  let t := { acknowledge s with busy := true }
  match decodeCmd w with
  | some i => { t with seq := ⟨opcodeOf i, 0⟩, timer := 0 }
  | none => raiseWith (w.extractLsb' 0 4) .illegalCommand t

/-- The bus transaction `t` has returned the answer `a`, the answers `rest` being still to come. -/
def answered (t : Txn) (a : Answer) (rest : List Answer) (s : State) : State :=
  { s with answers := rest, inflight := none, trace := .txn t a :: s.trace }

/-- `r <- f(...) ?` (R10) for a bus primitive `t`. A call that never returns, or that finds the list
of answers at its end: the step is not over, `t` stays in flight, and a later step finds it again
(R258). An answer ends the step: `err(k)` raises TransportFailure(k) (R79, R241); `ok` with the bytes
asked for binds them (R61). `latch` is what the step writes before the call, taking effect with the end
of the step (R8). Whether a call returns is settled for each call by its own entry of `answers` (R79);
what an RST that cuts a hung call leaves for the later ones is `answersAfterCut` (DESIGN CHOICE,
log 2, 16). -/
def busCall (t : Txn) (latch : State → State) (bind : List Byte → State → State) (s : State) :
    Result State :=
  match s.answers with
  | [] => .next { s with inflight := some t }
  | .never :: _ => .next { s with inflight := some t }
  | .err k :: rest => .next (raise (.transportFailure k) (answered t (.err k) rest (latch s)))
  | .ok bs :: rest =>
    if bs.length = t.rxLen then .next (bind bs (answered t (.ok bs) rest (latch s)))
    else .refused .transportContract

/-- How many milliseconds pass before this look at the settle timer: the platform's, and one where
the platform's list gives no more (log 4). -/
def nextTick (s : State) : Nat := s.ticks.headD 1

/-- The step `Delay(n)` (R253): it ends when at least `n` milliseconds have passed since it began. -/
def delayStep (n : Nat) (s : State) : Result State :=
  if n ≤ s.timer + nextTick s then
    .next (advance { s with ticks := s.ticks.tail, trace := .delay n :: s.trace })
  else
    .next { s with ticks := s.ticks.tail, timer := s.timer + nextTick s }

/-- The write step of `BhSend(c)` (R134, R64): `c_lat <- c`, `BusWrite(BhAddr, [c]) ?`. -/
def bhSend (c : WireCmd) (s : State) : Result State :=
  busCall (.write (bhAddr s.bhCfg) [c.byte]) (fun s => { s with cLat := c.byte })
    (fun _ s => advance s) s

/-- The delay step of `BhSend` (R134): `Delay(SettleMs(c_lat))`. -/
def settleDelay (s : State) : Result State :=
  match settleMs s.cLat with
  | some n => delayStep n s
  | none => .fault .noSettleDelay

/-- `BusRead(BhAddr, 2) ?` into `bh_buf` (R64, R137). -/
def bhFetch (s : State) : Result State :=
  busCall (.read (bhAddr s.bhCfg) 2) id (fun bs s => advance { s with bhBuf := frame2 bs }) s

/-- `MemRead(BmpAddr, r, n)` (R63): `BusWriteRead(BmpAddr, [r], n)`. -/
def memRead (s : State) (r : BmpReg) (n : Nat) : Txn := .writeRead (bmpAddr s.bmpCfg) [r.addr] n

/-- `MemWrite(BmpAddr, r, 1, v)` (R63): `BusWrite(BmpAddr, [r, v])`. -/
def memWrite (s : State) (r : BmpReg) (v : Byte) : Txn := .write (bmpAddr s.bmpCfg) [r.addr, v]

/-- `k <- MemRead(BmpAddr, 0x88, 24) ?`, `x[0..11] <- CalParse(k)` (R166 s0, R105). -/
def loadCalib (s : State) : Result State :=
  busCall (memRead s .calib calLen) id (fun bs s => advance { s with x := calParse bs }) s

/-- `adcT_buf <- MemRead(BmpAddr, 0xFA, 3) ?` (R167 s0, R168 s0, R112). -/
def fetchAdcT (s : State) : Result State :=
  busCall (memRead s .temp 3) id (fun bs s => advance { s with adcTBuf := frame3 bs }) s

/-- `adcP_buf <- MemRead(BmpAddr, 0xF7, 3) ?` (R168 s1, R111). -/
def fetchAdcP (s : State) : Result State :=
  busCall (memRead s .press 3) id (fun bs s => advance { s with adcPBuf := frame3 bs }) s

/-- `aux_buf <- MemRead(BmpAddr, r, 1) ?` (R169 s0, R170 s0, R106, R108). -/
def fetchAux (r : BmpReg) (s : State) : Result State :=
  busCall (memRead s r 1) id (fun bs s => advance { s with auxBuf := frame1 bs }) s

/-- `MemWrite(BmpAddr, r, 1, v) ?` (R166 s2, s3; R171 s0). -/
def storeReg (r : BmpReg) (v : Byte) (s : State) : Result State :=
  busCall (memWrite s r v) id (fun _ s => advance s) s

/-- The write of the control byte (R166 s2, R109, R113). -/
def storeCtrl (s : State) : Result State := storeReg .ctrl (ctrlByte s.params s.bmpCfg) s

/-- The write of the config byte (R166 s3, R110, R114). -/
def storeConfig (s : State) : Result State := storeReg .config (configByte s.params s.bmpCfg) s

/-- The write of RESET_WORD (R171 s0, R107, R115). -/
def storeResetWord (s : State) : Result State := storeReg .reset s.params.resetWord s

/-- The fetch: the command whose opcode SEQ holds (R26). -/
def fetch (s : State) : Fetched :=
  if s.seq = Seq.idle then .idle
  else
    match decodeOp s.seq.op with
    | some i => .run i
    | none => .illegal

end Sys2Proof.Machine
end

