-- ==== Sys2Proof/Machine/Compensation.lean ====
section
/-! DEFINITION. The compensation datapath (42_bmp280_compensation R190 to R201): fixed-width integer
operations on exact integers with the narrowing said at each one, CompT and CompP with every named
temporary (10_state R25), and the no-overflow predicates. -/

namespace Sys2Proof.Machine

/-- `fits_N(z)` (R190): `z` is in the signed `N`-bit range, `-(2^(N-1)) <= z < 2^(N-1)`; said by the
quotient, 0 or -1, so that nothing compares `z` with a large number by counting (`fits_iff` in
Laws/Datapath.lean is the range). -/
def fits (n : Nat) (z : Int) : Bool := decide (z / 2 ^ (n - 1) = 0) || decide (z / 2 ^ (n - 1) = -1)

/-- `wrap_N(z)` (R190): the integer of the signed `N`-bit range that is `z` modulo `2^N`. -/
def wrap (n : Nat) (z : Int) : Int := Int.bmod z (2 ^ n)

/-- What an operation with exact result `z` delivers (R191, R195): `z` when it fits; otherwise the
wrapped value, or under `fault` nothing (ArithOverflow). -/
def narrow (m : OvfMode) (n : Nat) (z : Int) : Option Int :=
  if fits n z then some z
  else
    match m with
    | .wrap => some (wrap n z)
    | .fault => none

/-- `addN`, `subN`, `mulN` (R191). -/
def addN (m : OvfMode) (n : Nat) (a b : Int) : Option Int := narrow m n (a + b)
def subN (m : OvfMode) (n : Nat) (a b : Int) : Option Int := narrow m n (a - b)
def mulN (m : OvfMode) (n : Nat) (a b : Int) : Option Int := narrow m n (a * b)

/-- `shlN(a, k) = wrap_N(a * 2^k)`, overflowing when `a * 2^k` does not fit (R192). -/
def shlN (m : OvfMode) (n : Nat) (a : Int) (k : Nat) : Option Int := narrow m n (a * 2 ^ k)

/-- `sarN(a, k) = floor(a / 2^k)` (R192); it never overflows. -/
def sar (a : Int) (k : Nat) : Int := a / 2 ^ k

/-- `sdiv64(a, b)`: the quotient truncated toward zero (R193). -/
def sdivN (m : OvfMode) (n : Nat) (a b : Int) : Option Int := narrow m n (Int.tdiv a b)

/-- The temporaries of CompT (R196). -/
structure TempsT where
  t1 : Int
  t2 : Int
  t3 : Int
  t4 : Int
  var1 : Int
  t5 : Int
  t6 : Int
  t7 : Int
  t8 : Int
  t9 : Int
  var2 : Int
  tFine : Int
  t10 : Int
  t11 : Int
  t : Int
deriving DecidableEq, Repr

/-- The steps of `CompT(adc_T, dig_T1, dig_T2, dig_T3)` (R196), all 32-bit signed. `none` is
ArithOverflow (R195). -/
def tempsT (m : OvfMode) (adcT d1 d2 d3 : Int) : Option TempsT := do
  let t1 := sar adcT 3
  let t2 ← shlN m 32 d1 1
  let t3 ← subN m 32 t1 t2
  let t4 ← mulN m 32 t3 d2
  let var1 := sar t4 11
  let t5 := sar adcT 4
  let t6 ← subN m 32 t5 d1
  let t7 ← mulN m 32 t6 t6
  let t8 := sar t7 12
  let t9 ← mulN m 32 t8 d3
  let var2 := sar t9 14
  let tFine ← addN m 32 var1 var2
  let t10 ← mulN m 32 tFine 5
  let t11 ← addN m 32 t10 128
  let t := sar t11 8
  some { t1, t2, t3, t4, var1, t5, t6, t7, t8, t9, var2, tFine, t10, t11, t }

/-- `CompT -> (t_fine, T)` (R196). -/
def compT (m : OvfMode) (adcT d1 d2 d3 : Int) : Option (Int × Int) :=
  (tempsT m adcT d1 d2 d3).map fun r => (r.tFine, r.t)

/-- The pressure coefficients `dig_P1..dig_P9` as integers. -/
structure PCoefs where
  p1 : Int
  p2 : Int
  p3 : Int
  p4 : Int
  p5 : Int
  p6 : Int
  p7 : Int
  p8 : Int
  p9 : Int
deriving DecidableEq, Repr

/-- The temporaries of CompP up to the denominator (R199). -/
structure TempsDen where
  v1 : Int
  p1 : Int
  p2 : Int
  p3 : Int
  p4 : Int
  p5 : Int
  p6 : Int
  v2 : Int
  q1 : Int
  q2 : Int
  q3 : Int
  q4 : Int
  q5 : Int
  q6 : Int
  q7 : Int
  den : Int
deriving DecidableEq, Repr

/-- The temporaries of CompP after the zero test (R199). -/
structure TempsQuot where
  n1 : Int
  n2 : Int
  n3 : Int
  n4 : Int
  pq : Int
  h : Int
  c1 : Int
  c2 : Int
  c3 : Int
  c4 : Int
  c5 : Int
  s1 : Int
  s2 : Int
  s3 : Int
  s4 : Int
  r : Int
deriving DecidableEq, Repr

/-- The steps of CompP from `v1` to `den` (R199), all 64-bit signed. -/
def tempsDen (m : OvfMode) (tFine : Int) (d : PCoefs) : Option TempsDen := do
  let v1 ← subN m 64 tFine 128000
  let p1 ← mulN m 64 v1 v1
  let p2 ← mulN m 64 p1 d.p6
  let p3 ← mulN m 64 v1 d.p5
  let p4 ← shlN m 64 p3 17
  let p5 ← addN m 64 p2 p4
  let p6 ← shlN m 64 d.p4 35
  let v2 ← addN m 64 p5 p6
  let q1 ← mulN m 64 p1 d.p3
  let q2 := sar q1 8
  let q3 ← mulN m 64 v1 d.p2
  let q4 ← shlN m 64 q3 12
  let q5 ← addN m 64 q2 q4
  let q6 ← addN m 64 140737488355328 q5
  let q7 ← mulN m 64 q6 d.p1
  let den := sar q7 33
  some { v1, p1, p2, p3, p4, p5, p6, v2, q1, q2, q3, q4, q5, q6, q7, den }

/-- The steps of CompP from `n1` to `r` (R199), for a denominator that is not zero. -/
def tempsQuot (m : OvfMode) (adcP v2 den : Int) (d : PCoefs) : Option TempsQuot := do
  let n1 ← subN m 64 1048576 adcP
  let n2 ← shlN m 64 n1 31
  let n3 ← subN m 64 n2 v2
  let n4 ← mulN m 64 n3 3125
  let pq ← sdivN m 64 n4 den
  let h := sar pq 13
  let c1 ← mulN m 64 d.p9 h
  let c2 ← mulN m 64 c1 h
  let c3 := sar c2 25
  let c4 ← mulN m 64 d.p8 pq
  let c5 := sar c4 19
  let s1 ← addN m 64 pq c3
  let s2 ← addN m 64 s1 c5
  let s3 := sar s2 8
  let s4 ← shlN m 64 d.p7 4
  let r ← addN m 64 s3 s4
  some { n1, n2, n3, n4, pq, h, c1, c2, c3, c4, c5, s1, s2, s3, s4, r }

/-- `r mod 2^32` (R194): the narrowing to the unsigned Pressure, never an overflow. -/
def narrowPressure (r : Int) : Word := BitVec.ofInt 32 r

/-- `CompP(adc_P, t_fine, dig_P1..dig_P9) -> P` (R199), with the zero denominator of R200: "returns 0
and performs no division". -/
def compP (m : OvfMode) (adcP tFine : Int) (d : PCoefs) : Option Word :=
  match tempsDen m tFine d with
  | none => none
  | some a =>
    if a.den = 0 then some 0
    else (tempsQuot m adcP a.v2 a.den d).map fun b => narrowPressure b.r

/-- The operands of the datapaths (R190): value-preserving widening, `dig_T1` and `dig_P1` unsigned,
the ten others signed (R21), ADC codes non-negative (R118). -/
def Calib.pCoefs (x : Calib) : PCoefs :=
  { p1 := x.digP1.toNat, p2 := x.digP2.toInt, p3 := x.digP3.toInt, p4 := x.digP4.toInt,
    p5 := x.digP5.toInt, p6 := x.digP6.toInt, p7 := x.digP7.toInt, p8 := x.digP8.toInt,
    p9 := x.digP9.toInt }

/-- CompT on a temperature frame and the registers `x[0..2]` (R167 s1). -/
def compTOf (m : OvfMode) (f : Frame3) (x : Calib) : Option (Int × Int) :=
  compT m (adcUnpack f).toNat x.digT1.toNat x.digT2.toInt x.digT3.toInt

/-- CompP on a pressure frame, a `t_fine` and the registers `x[3..11]` (R168 s2). -/
def compPOf (m : OvfMode) (f : Frame3) (tFine : Int) (x : Calib) : Option Word :=
  compP m (adcUnpack f).toNat tFine x.pCoefs

/-- `NoOvfT` (R197): the three products that can overflow, exact, fit. -/
def noOvfT (adcT d1 d2 d3 : Int) : Bool :=
  let t3 := sar adcT 3 - d1 * 2
  let t6 := sar adcT 4 - d1
  fits 32 (t3 * d2) && fits 32 (t6 * t6) && fits 32 (sar (t6 * t6) 12 * d3)

/-- The exact results of the steps of CompP from `v1` to `den` (R199), over the integers. -/
def exactDen (tFine : Int) (d : PCoefs) : TempsDen :=
  let v1 := tFine - 128000
  let p1 := v1 * v1
  let p2 := p1 * d.p6
  let p3 := v1 * d.p5
  let p4 := p3 * 2 ^ 17
  let p5 := p2 + p4
  let p6 := d.p4 * 2 ^ 35
  let v2 := p5 + p6
  let q1 := p1 * d.p3
  let q2 := sar q1 8
  let q3 := v1 * d.p2
  let q4 := q3 * 2 ^ 12
  let q5 := q2 + q4
  let q6 := 140737488355328 + q5
  let q7 := q6 * d.p1
  let den := sar q7 33
  { v1, p1, p2, p3, p4, p5, p6, v2, q1, q2, q3, q4, q5, q6, q7, den }

/-- The exact results of the steps of CompP from `n1` to `r` (R199), over the integers. -/
def exactQuot (adcP v2 den : Int) (d : PCoefs) : TempsQuot :=
  let n1 := 1048576 - adcP
  let n2 := n1 * 2 ^ 31
  let n3 := n2 - v2
  let n4 := n3 * 3125
  let pq := Int.tdiv n4 den
  let h := sar pq 13
  let c1 := d.p9 * h
  let c2 := c1 * h
  let c3 := sar c2 25
  let c4 := d.p8 * pq
  let c5 := sar c4 19
  let s1 := pq + c3
  let s2 := s1 + c5
  let s3 := sar s2 8
  let s4 := d.p7 * 2 ^ 4
  let r := s3 + s4
  { n1, n2, n3, n4, pq, h, c1, c2, c3, c4, c5, s1, s2, s3, s4, r }

/-- The results of every `mul64`, `shl64`, `add64`, `sub64` and `sdiv64` of CompP fit in s64. -/
def TempsDen.allFit (a : TempsDen) : Bool :=
  [a.v1, a.p1, a.p2, a.p3, a.p4, a.p5, a.p6, a.v2, a.q1, a.q3, a.q4, a.q5, a.q6, a.q7].all (fits 64)
def TempsQuot.allFit (b : TempsQuot) : Bool :=
  [b.n1, b.n2, b.n3, b.n4, b.pq, b.c1, b.c2, b.c4, b.s1, b.s2, b.s4, b.r].all (fits 64)

/-- `NoOvfP` of the bare function, for any s32 `t_fine` (R201: it "then ranges over every `mul64`,
`shl64`, `add64`, `sub64` and `sdiv64` of rule R199"): those up to `den`, and, unless `den = 0` ends the
function (R200), those after it. For a `t_fine` that CompT gave it is `noOvfP`. -/
def noOvfPBare (adcP tFine : Int) (d : PCoefs) : Bool :=
  let a := exactDen tFine d
  a.allFit && (decide (a.den = 0) || (exactQuot adcP a.v2 a.den d).allFit)

/-- `NoOvfP` (R201) inside the SCSE, where `t_fine` is in CompT's range: the exact results of the eight
operations that can overflow fit in s64; when `den = 0` those after the zero test do not happen (R200). -/
def noOvfP (adcP tFine : Int) (d : PCoefs) : Bool :=
  let a := exactDen tFine d
  let b := exactQuot adcP a.v2 a.den d
  fits 64 a.q7 && (decide (a.den = 0) || [b.n4, b.pq, b.c1, b.c2, b.c4, b.s1, b.s2].all (fits 64))

/-- The ranges of the operands of CompT (R196) and of CompP inside the SCSE (R199, R201). -/
def inRangeT (adcT d1 d2 d3 : Int) : Prop :=
  (0 ≤ adcT ∧ adcT < 2 ^ 20) ∧ (0 ≤ d1 ∧ d1 < 2 ^ 16) ∧ (-(2 ^ 15) ≤ d2 ∧ d2 < 2 ^ 15) ∧
    (-(2 ^ 15) ≤ d3 ∧ d3 < 2 ^ 15)

def isS16 (z : Int) : Prop := -(2 ^ 15) ≤ z ∧ z < 2 ^ 15

def PCoefs.inRange (d : PCoefs) : Prop :=
  (0 ≤ d.p1 ∧ d.p1 < 2 ^ 16) ∧ isS16 d.p2 ∧ isS16 d.p3 ∧ isS16 d.p4 ∧ isS16 d.p5 ∧ isS16 d.p6 ∧
    isS16 d.p7 ∧ isS16 d.p8 ∧ isS16 d.p9

/-- The reference coefficient set (R199, R202; vector V20), from general knowledge (93 G2). -/
def refT1 : Int := 27504
def refT2 : Int := 26435
def refT3 : Int := -1000
def refP : PCoefs :=
  { p1 := 36477, p2 := -10685, p3 := 3024, p4 := 2855, p5 := 140, p6 := -7, p7 := 15500,
    p8 := -14600, p9 := 6000 }

end Sys2Proof.Machine
end

