-- ==== Sys2Proof/Machine/Bh1750.lean ====
section
/-! DEFINITION. The BH1750 family: the commands BH_INIT and BH_READ (40_bh1750_sequencer R135 to
R137) and the nine wire commands (30_encoding R95 to R103; R134). A command's meaning is the step
whose number stands in SEQ. -/

namespace Sys2Proof.Machine

/-- BH_INIT (R136), with its admission (R135): AlreadyInit, then IllegalConfig (R247). -/
def execBhInit (s : State) : Result State :=
  match s.seq.step.toNat with
  | 0 =>
    if s.bhReady then .next (raise .alreadyInit s)
    else
      match cmdSelect (bhOneTime s.bhCfg) (bhRes s.bhCfg) with
      | none => .next (raise .illegalConfig s)
      | some c => bhSend c s
  | 1 => settleDelay s
  | 2 => .next (finish { s with bhReady := true })
  | _ => .fault .sequencerState

/-- BH_READ (R137), with its admission (R135). In continuous mode s0 skips to s2. -/
def execBhRead (s : State) : Result State :=
  match s.seq.step.toNat with
  | 0 =>
    if !s.bhReady then .next (raise .notReady s)
    else if !bhOneTime s.bhCfg then .next (jumpTo 2 s)
    else
      match trigSelect (bhRes s.bhCfg) with
      | none => .fault .noWireCommand
      | some c => bhSend c s
  | 1 => settleDelay s
  | 2 => bhFetch s
  | 3 => .next (finish { s with lux := (bhDecode s.bhBuf).zeroExtend 32 })
  | _ => .fault .sequencerState

/-- BH_POWER_DOWN, byte 0x00 (R95): the write step of BhSend; the Delay follows in the next step. -/
def execBhPowerDown (s : State) : Result State := bhSend .powerDown s

/-- BH_POWER_UP, byte 0x01 (R96): BhSend is defined for it (R134); no command of the SCSE sends it. -/
def execBhPowerUp (s : State) : Result State := bhSend .powerUp s

/-- BH_RESET, byte 0x07 (R97): BhSend is defined for it (R134); no command of the SCSE sends it. -/
def execBhReset (s : State) : Result State := bhSend .reset s

/-- BH_CONT_HIGH, byte 0x10 (R98). -/
def execBhContHigh (s : State) : Result State := bhSend .contHigh s

/-- BH_CONT_UHIGH, byte 0x11 (R99). -/
def execBhContUhigh (s : State) : Result State := bhSend .contUhigh s

/-- BH_CONT_LOW, byte 0x13 (R100). -/
def execBhContLow (s : State) : Result State := bhSend .contLow s

/-- BH_OT_HIGH, byte 0x20 (R101). -/
def execBhOtHigh (s : State) : Result State := bhSend .otHigh s

/-- BH_OT_UHIGH, byte 0x21 (R102). -/
def execBhOtUhigh (s : State) : Result State := bhSend .otUhigh s

/-- BH_OT_LOW, byte 0x23 (R103). -/
def execBhOtLow (s : State) : Result State := bhSend .otLow s

end Sys2Proof.Machine
end

