-- ==== Sys2Proof/Machine/Bmp280.lean ====
section
/-! DEFINITION. The BMP280 family: the six commands (41_bmp280_sequencer R160, R166 to R171) and the
eight register accesses (30_encoding R105 to R112). A command's meaning is the step whose number
stands in SEQ. -/

namespace Sys2Proof.Machine

/-- BMP_INIT (R166), with its admission (R160). -/
def execBmpInit (s : State) : Result State :=
  match s.seq.step.toNat with
  | 0 => if s.bmpReady then .next (raise .alreadyInit s) else loadCalib s
  | 1 => delayStep bmpInitDelay s
  | 2 => storeCtrl s
  | 3 => storeConfig s
  | 4 => .next (finish { s with bmpReady := true })
  | _ => .fault .sequencerState

/-- The compensation step of BMP_READ_T (R167 s1). ArithOverflow leaves TEMP and T_FINE (R261). -/
def compensateT (s : State) : State :=
  match compTOf s.params.ovfMode s.adcTBuf s.x with
  | none => raise .arithOverflow s
  | some (tf, t) => finish { s with tFine := BitVec.ofInt 32 tf, temp := BitVec.ofInt 32 t }

/-- BMP_READ_T (R167), with its admission (R160). -/
def execBmpReadT (s : State) : Result State :=
  match s.seq.step.toNat with
  | 0 => if !s.bmpReady then .next (raise .notReady s) else fetchAdcT s
  | 1 => .next (compensateT s)
  | _ => .fault .sequencerState

/-- The compensation step of BMP_READ_P (R168 s2): T is computed and dropped, T_FINE and PRESS are
written. ArithOverflow leaves PRESS and T_FINE (R261). -/
def compensateP (s : State) : State :=
  match compTOf s.params.ovfMode s.adcTBuf s.x with
  | none => raise .arithOverflow s
  | some (tf, _) =>
    match compPOf s.params.ovfMode s.adcPBuf tf s.x with
    | none => raise .arithOverflow s
    | some p => finish { s with tFine := BitVec.ofInt 32 tf, press := p }

/-- BMP_READ_P (R168), with its admission (R160). Temperature is read before pressure (R75, R276). -/
def execBmpReadP (s : State) : Result State :=
  match s.seq.step.toNat with
  | 0 => if !s.bmpReady then .next (raise .notReady s) else fetchAdcT s
  | 1 => fetchAdcP s
  | 2 => .next (compensateP s)
  | _ => .fault .sequencerState

/-- BMP_READ_ID (R169), with its admission (R160). -/
def execBmpReadId (s : State) : Result State :=
  match s.seq.step.toNat with
  | 0 => if !s.bmpReady then .next (raise .notReady s) else fetchAux .id s
  | 1 => .next (finish { s with aux := auxOfId s.auxBuf })
  | _ => .fault .sequencerState

/-- BMP_READ_STATUS (R170), with its admission (R160). -/
def execBmpReadStatus (s : State) : Result State :=
  match s.seq.step.toNat with
  | 0 => if !s.bmpReady then .next (raise .notReady s) else fetchAux .status s
  | 1 => .next (finish { s with aux := auxOfStatus s.params s.auxBuf })
  | _ => .fault .sequencerState

/-- BMP_RESET (R171), with its admission (R160): one write, no state but BUSY and DONE. -/
def execBmpReset (s : State) : Result State :=
  match s.seq.step.toNat with
  | 0 => if !s.bmpReady then .next (raise .notReady s) else storeResetWord s
  | 1 => .next (finish s)
  | _ => .fault .sequencerState

/-- BMP_REG_CALIB, 0x88, 24 bytes read (R105), parsed into `x` in the step that receives them (R43). -/
def execBmpRegCalib (s : State) : Result State := loadCalib s

/-- BMP_REG_ID, 0xD0, 1 byte read (R106). -/
def execBmpRegId (s : State) : Result State := fetchAux .id s

/-- BMP_REG_RESET, 0xE0, RESET_WORD written (R107, R115). -/
def execBmpRegReset (s : State) : Result State := storeResetWord s

/-- BMP_REG_STATUS, 0xF3, 1 byte read (R108). -/
def execBmpRegStatus (s : State) : Result State := fetchAux .status s

/-- BMP_REG_CTRL, 0xF4, the control byte written (R109, R113). -/
def execBmpRegCtrl (s : State) : Result State := storeCtrl s

/-- BMP_REG_CONFIG, 0xF5, the config byte written (R110, R114). -/
def execBmpRegConfig (s : State) : Result State := storeConfig s

/-- BMP_REG_PRESS, 0xF7, 3 bytes read (R111). -/
def execBmpRegPress (s : State) : Result State := fetchAdcP s

/-- BMP_REG_TEMP, 0xFA, 3 bytes read (R112). -/
def execBmpRegTemp (s : State) : Result State := fetchAdcT s

end Sys2Proof.Machine
end

