-- ==== Sys2Proof/Machine/HostPort.lean ====
section
/-! DEFINITION. The host side: the register map (10_state R28 to R42), reads and writes, RST
(70_reset R270), whose turn a step is (log 5), and the script language with the capability names
(30_encoding R122, R123). -/

namespace Sys2Proof.Machine

/-- The index of a named register (R28). -/
def regIndex : HostReg → HostIdx
  | .cmd => 0x00
  | .status => 0x01
  | .errInfo => 0x02
  | .errKind => 0x03
  | .bhCfg => 0x04
  | .bmpCfg => 0x05
  | .lux => 0x08
  | .temp => 0x09
  | .press => 0x0A
  | .tFine => 0x0B
  | .aux => 0x0C
  | .dig i => BitVec.ofNat 6 (16 + i.val)

/-- The register at an index; `none` is a reserved index (R28, R41). -/
def regAt (i : HostIdx) : Option HostReg :=
  match i.toNat with
  | 0x00 => some .cmd
  | 0x01 => some .status
  | 0x02 => some .errInfo
  | 0x03 => some .errKind
  | 0x04 => some .bhCfg
  | 0x05 => some .bmpCfg
  | 0x08 => some .lux
  | 0x09 => some .temp
  | 0x0A => some .press
  | 0x0B => some .tFine
  | 0x0C => some .aux
  | 0x10 => some (.dig 0)
  | 0x11 => some (.dig 1)
  | 0x12 => some (.dig 2)
  | 0x13 => some (.dig 3)
  | 0x14 => some (.dig 4)
  | 0x15 => some (.dig 5)
  | 0x16 => some (.dig 6)
  | 0x17 => some (.dig 7)
  | 0x18 => some (.dig 8)
  | 0x19 => some (.dig 9)
  | 0x1A => some (.dig 10)
  | 0x1B => some (.dig 11)
  | _ => none

/-- DIG`i`: `zext_32` for `i = 0` and `i = 3`, `sext_32` for the others (R40). -/
def digWord (x : Calib) (i : Fin 12) : Word :=
  if i.val = 0 ∨ i.val = 3 then (x.get i).zeroExtend 32 else (x.get i).signExtend 32

/-- What a host read of a named register returns. ERRKIND while ERR_CODE is not 1 (R32) and DIG while
`BMP_READY = 0` (R23, R40) return a FREE VALUE (log 10). -/
def regView (s : State) : HostReg → Word
  | .cmd => 0
  | .status => statusWord s
  | .errInfo => s.errInfo
  | .errKind => if errCode s.errInfo = 1#3 then s.errKind else Config.freeRead s.freeCtr
  | .bhCfg => s.bhCfg
  | .bmpCfg => s.bmpCfg
  | .lux => s.lux
  | .temp => s.temp
  | .press => s.press
  | .tFine => s.tFine
  | .aux => s.aux
  | .dig i => if s.bmpReady then digWord s.x i else Config.freeRead s.freeCtr

/-- What a host read at an index returns: reserved indices read as zero (R41). -/
def hostView (s : State) (i : HostIdx) : Word :=
  match regAt i with
  | some r => regView s r
  | none => 0

/-- A host read: "no side effect on any register" (R28). The word is recorded and the counter of free
values moves on, so that two unspecified reads are independent (log 10). -/
def hostRead (i : HostIdx) (s : State) : State :=
  { s with reads := (i, hostView s i) :: s.reads, freeCtr := s.freeCtr + 1 }

/-- A host write of `v` at an index. CMD: accepted while `BUSY = 0` (R29), dropped while `BUSY = 1`
(R260; log 8). BH_CFG, BMP_CFG: the stored bits, unless locked (R33, R34, R42). Everything else
ignores writes (R41). -/
def hostWrite (i : HostIdx) (v : Word) (s : State) : State :=
  match regAt i with
  | some .cmd => if s.busy then s else accept v s
  | some .bhCfg => if bhCfgLocked s then s else { s with bhCfg := v &&& bhCfgMask }
  | some .bmpCfg => if bmpCfgLocked s then s else { s with bmpCfg := v &&& bmpCfgMask }
  | some _ => s
  | none => s

/-- The transport's answers after an RST with the transaction `cut` in flight: a call that never
returns ends with its step, so its entry `never` goes with it and the next call has the entry after it.
Whether the transport serves the calls after a cut one the spec leaves open (R79: each call for itself;
93 U17): here the list says it, call by call, so both are allowed. DESIGN CHOICE, log 16. -/
def answersAfterCut (cut : Option Txn) (answers : List Answer) : List Answer :=
  match cut, answers with
  | some _, .never :: rest => rest
  | _, _ => answers

/-- RST (R270): every piece of state to its reset value in one step, a command in progress abandoned
without an exception. What is no state of the SCSE stays: the parameters and the host's, transport's
and timer's lists, but for the entry of a call that RST cuts (`answersAfterCut`); the trace records the
reset and the transaction it cut (DESIGN CHOICE, log 16). -/
def applyReset (s : State) : State :=
  { State.reset with
    params := s.params
    host := s.host
    answers := answersAfterCut s.inflight s.answers
    ticks := s.ticks
    trace := .reset s.inflight :: s.trace
    reads := s.reads
    freeCtr := s.freeCtr }

/-- Whose turn it is (log 5). The host's next action is taken; with `pass`, with `await` while
`BUSY = 1`, and with no action left, the SCSE moves. -/
def turn (s : State) : Turn :=
  match s.host with
  | [] => .scse s
  | .write i v :: rest => .host (hostWrite i v { s with host := rest })
  | .read i :: rest => .host (hostRead i { s with host := rest })
  | .rst :: rest => .host (applyReset { s with host := rest })
  | .pass :: rest => .scse { s with host := rest }
  | .await :: rest => if s.busy then .scse s else .host { s with host := rest }

/-- What a script statement stands for (R122). -/
def stmtActs : Stmt → List HostAct
  | .wr r v => [.write (regIndex r) v]
  | .cmd i => [.write (regIndex .cmd) (commandWord i), .await]
  | .rd r => [.read (regIndex r)]
  | .rst => [.rst]

/-- The host actions of a script. -/
def scriptActs (p : List Stmt) : List HostAct := p.flatMap stmtActs

/-- What a capability name stands for (R123); the result is read after the command. -/
def capabilityScript : Capability → List Stmt
  | .lightRead => [.cmd .bhRead]
  | .temperatureRead => [.cmd .bmpReadT]
  | .pressureRead => [.cmd .bmpReadP]
  | .constructBh1750 v => [.wr .bhCfg v, .cmd .bhInit]
  | .constructBmp280 v => [.wr .bmpCfg v, .cmd .bmpInit]

/-- The registers a capability's result is read from (R123); what they say is `capabilityOutcome` in
ValueTypes.lean. -/
def capabilityResult : Capability → List HostReg
  | .lightRead => [.lux, .errInfo, .errKind]
  | .temperatureRead => [.temp, .errInfo, .errKind]
  | .pressureRead => [.press, .errInfo, .errKind]
  | .constructBh1750 _ => [.status]
  | .constructBmp280 _ => [.status]

end Sys2Proof.Machine
end

