-- ==== Sys2Proof/Machine/ValueTypes.lean ====
section
/-! DEFINITION. The value types and their exact conversions (43_value_types R230 to R236), and the
typed results of the capability interfaces (30_encoding R123). The conversions are the host's: no register holds a floating-point value. A result is a sign, a
significand and an exponent, correctly rounded in the format `FLOAT`, with its IEEE 754 bits. -/

namespace Sys2Proof.Machine

/-- `Temperature` (R230) and `Pressure` (R231). -/
structure Temperature where
  raw : Word
deriving DecidableEq, Repr

structure Pressure where
  raw : Word
deriving DecidableEq, Repr

/-- What a capability's operation returns (R123): `lux:uint16`, `Temperature` or `Pressure`, or the
`Error` with the words of ERRINFO and ERRKIND; whether a driver stands constructed. -/
inductive CapabilityResult where
  | light (lux : BitVec 16)
  | temperature (t : Temperature)
  | pressure (p : Pressure)
  | constructed (ready : Bool)
  | error (errInfo errKind : Word)
deriving DecidableEq, Repr

/-- The result of a `read_value`: the error while STATUS says ERR, else the value. -/
def valueOrError (value : CapabilityResult) (s : State) : CapabilityResult :=
  if (regView s .status).getLsbD 2 then .error (regView s .errInfo) (regView s .errKind) else value

/-- The result of a capability's operation, read by the host in the state its script leaves (R123): LUX,
TEMP or PRESS, or ERRINFO and ERRKIND; STATUS.BH_READY or STATUS.BMP_READY. -/
def capabilityOutcome : Capability → State → CapabilityResult
  | .lightRead, s => valueOrError (.light ((regView s .lux).extractLsb' 0 16)) s
  | .temperatureRead, s => valueOrError (.temperature ⟨regView s .temp⟩) s
  | .pressureRead, s => valueOrError (.pressure ⟨regView s .press⟩) s
  | .constructBh1750 _, s => .constructed ((regView s .status).getLsbD 3)
  | .constructBmp280 _, s => .constructed ((regView s .status).getLsbD 4)

/-- A finite binary floating-point number: the value is `± mant * 2^exp`. -/
structure FloatVal where
  neg : Bool
  mant : Nat
  exp : Int
deriving DecidableEq, Repr

/-- The number a float stands for. -/
def FloatVal.toRat (v : FloatVal) : ℚ :=
  (if v.neg then -1 else 1) * (v.mant : ℚ) * (2 : ℚ) ^ v.exp

/-- `v` is a number with the significand precision of `f`. The range of the exponent field is left
out: the quotients of R232 and R233 are far inside that of every admitted format (R234). -/
def holdsIn (f : FloatFormat) (v : FloatVal) : Prop := v.mant < 2 ^ (f.fracBits + 1)

/-- `n * 2^k` as numerator and denominator, for a `k` of either sign. -/
def scale (n d : Nat) : Int → Nat × Nat
  | .ofNat k => (n * 2 ^ k, d)
  | .negSucc k => (n, d * 2 ^ (k + 1))

/-- `floor(log2(n / d))`, for `n` and `d` not zero. -/
def log2Ratio (n d : Nat) : Int :=
  let l : Int := (Nat.log2 n : Int) - (Nat.log2 d : Int)
  let q := scale n d (-l)
  if q.2 ≤ q.1 then l else l - 1

/-- The integer nearest `n / d`, ties to even, for `d` not zero. -/
def roundEven (n d : Nat) : Nat :=
  let q := n / d
  let r := n % d
  if 2 * r < d then q
  else if d < 2 * r then q + 1
  else if q % 2 = 0 then q
  else q + 1

/-- The float of format `f` nearest `n / d`, ties to even (R232). The significand is brought back
below `2^(fracBits+1)` when rounding carries it there. -/
def nearestFloat (f : FloatFormat) (neg : Bool) (n d : Nat) : FloatVal :=
  if n = 0 then ⟨false, 0, 0⟩
  else
    let e : Int := log2Ratio n d - f.fracBits
    let q := scale n d (-e)
    let m := roundEven q.1 q.2
    if m = 2 ^ (f.fracBits + 1) then ⟨neg, 2 ^ f.fracBits, e + 1⟩ else ⟨neg, m, e⟩

/-- `Temperature.to_celsius() = raw / 100.0` (R232). -/
def Temperature.toCelsius (f : FloatFormat) (t : Temperature) : FloatVal :=
  nearestFloat f t.raw.msb t.raw.toInt.natAbs 100

/-- `Pressure.to_hpa() = raw / 25600.0` (R233). -/
def Pressure.toHpa (f : FloatFormat) (p : Pressure) : FloatVal :=
  nearestFloat f false p.raw.toNat 25600

/-- The IEEE 754 bits of a normal number or zero of format `f` (R235). -/
def FloatVal.bits (f : FloatFormat) (v : FloatVal) : Nat :=
  let sign := if v.neg then 2 ^ (f.expBits + f.fracBits) else 0
  if v.mant = 0 then sign
  else
    let biased := v.exp + f.fracBits + (2 ^ (f.expBits - 1) - 1 : Nat)
    sign + biased.toNat * 2 ^ f.fracBits + (v.mant - 2 ^ f.fracBits)

/-- The light value is used as it is: an unsigned 16-bit number (R236). -/
def luxValue (lux : Word) : Nat := lux.toNat

end Sys2Proof.Machine
end

