-- ==== Sys2Proof/Machine/FetchSlot.lean ====
section
/-! DEFINITION. Where an instruction has to stand so that the very next step runs it (log 12): a host
command in SEQ at step s0, as its accepted CMD write leaves it (10_state R29); a wire row at the step
of the command that carries it, with the configuration that selects it; and which wire row the step in
SEQ carries. -/

namespace Sys2Proof.Machine

/-- The SCSE in step `k` of the command `i`, and its turn next. -/
def atStep (i : Instr) (k : BitVec 3) (s : State) : State :=
  { acknowledge s with
    busy := true
    seq := ⟨opcodeOf i, k⟩
    timer := 0
    inflight := none
    host := .pass :: s.host }

/-- The host has written the value `w` to CMD while `BUSY = 0`. A legal command stands accepted in SEQ
and it is the SCSE's turn; an illegal word is the host's next action, and the step that takes it
raises IllegalCommand (R242). -/
def placeHostWord (w : Word) (s : State) : State :=
  match decodeCmd w with
  | some i => atStep i 0 s
  | none =>
    { s with busy := false, seq := Seq.idle, inflight := none, host := .write 0x00 w :: s.host }

/-- BH_INIT at s0, not constructed, with OP, RES (`BH_CFG[3:1]`) such that its write sends `c` (R130). -/
def atBhInit (opRes : Word) (s : State) : State :=
  { atStep .bhInit 0 s with bhReady := false, bhCfg := (s.bhCfg &&& 1) ||| (opRes <<< 1) }

/-- BH_READ at s0, constructed in one-time mode, with RES such that its write sends `c` (R131). -/
def atBhRead (opRes : Word) (s : State) : State :=
  { atStep .bhRead 0 s with bhReady := true, bhCfg := (s.bhCfg &&& 1) ||| (opRes <<< 1) }

/-- The instruction `i`, decoded from the word `w`, where the next step runs it. BH_POWER_UP and
BH_RESET are "sent by no command of the SCSE" (R96, R97): no step of the hardware runs them. -/
def placeInstr (i : Instr) (w : Word) (s : State) : State :=
  match i with
  | .bhInit | .bhRead => placeHostWord w s
  | .bmpInit | .bmpReadT | .bmpReadP | .bmpReadId | .bmpReadStatus | .bmpReset => placeHostWord w s
  | .bhPowerDown => atBhInit 0b100 s
  | .bhContHigh => atBhInit 0b000 s
  | .bhContUhigh => atBhInit 0b001 s
  | .bhContLow => atBhInit 0b011 s
  | .bhOtHigh => atBhRead 0b100 s
  | .bhOtUhigh => atBhRead 0b101 s
  | .bhOtLow => atBhRead 0b111 s
  | .bhPowerUp | .bhReset => s
  | .bmpRegCalib => { atStep .bmpInit 0 s with bmpReady := false }
  | .bmpRegCtrl => { atStep .bmpInit 2 s with bmpReady := false }
  | .bmpRegConfig => { atStep .bmpInit 3 s with bmpReady := false }
  | .bmpRegTemp => { atStep .bmpReadT 0 s with bmpReady := true }
  | .bmpRegPress => { atStep .bmpReadP 1 s with bmpReady := true }
  | .bmpRegId => { atStep .bmpReadId 0 s with bmpReady := true }
  | .bmpRegStatus => { atStep .bmpReadStatus 0 s with bmpReady := true }
  | .bmpRegReset => { atStep .bmpReset 0 s with bmpReady := true }

/-- The wire row that the bus access of step `k` of the command `i` carries, once admitted (R136,
R137, R166 to R171): BH_INIT and BH_READ send a wire command, the BMP280 commands access a register.
`none` for a step without one (the BH1750 result read has no row: it sends no byte). -/
def carriedBy (i : Instr) (k : Nat) (s : State) : Option Instr :=
  match i, k with
  | .bhInit, 0 =>
    if s.bhReady then none
    else (cmdSelect (bhOneTime s.bhCfg) (bhRes s.bhCfg)).map WireCmd.instr
  | .bhRead, 0 =>
    if s.bhReady && bhOneTime s.bhCfg then (trigSelect (bhRes s.bhCfg)).map WireCmd.instr else none
  | .bmpInit, 0 => if s.bmpReady then none else some .bmpRegCalib
  | .bmpInit, 2 => some .bmpRegCtrl
  | .bmpInit, 3 => some .bmpRegConfig
  | .bmpReadT, 0 => if s.bmpReady then some .bmpRegTemp else none
  | .bmpReadP, 0 => if s.bmpReady then some .bmpRegTemp else none
  | .bmpReadP, 1 => some .bmpRegPress
  | .bmpReadId, 0 => if s.bmpReady then some .bmpRegId else none
  | .bmpReadStatus, 0 => if s.bmpReady then some .bmpRegStatus else none
  | .bmpReset, 0 => if s.bmpReady then some .bmpRegReset else none
  | _, _ => none

/-- The wire row that the step in SEQ carries. -/
def carriedRow (s : State) : Option Instr :=
  match fetch s with
  | .run i => carriedBy i s.seq.step.toNat s
  | .idle => none
  | .illegal => none

end Sys2Proof.Machine
end

