-- ==== Sys2Proof/Machine/Dispatch.lean ====
section
/-! DEFINITION. The dispatch of an instruction to its meaning, one arm per constructor. -/

namespace Sys2Proof.Machine

def exec (i : Instr) (s : State) : Host.Outcome State Fault Refusal :=
  match i with
  | .bhInit => Sys2Proof.Machine.execBhInit s
  | .bhRead => Sys2Proof.Machine.execBhRead s
  | .bmpInit => Sys2Proof.Machine.execBmpInit s
  | .bmpReadT => Sys2Proof.Machine.execBmpReadT s
  | .bmpReadP => Sys2Proof.Machine.execBmpReadP s
  | .bmpReadId => Sys2Proof.Machine.execBmpReadId s
  | .bmpReadStatus => Sys2Proof.Machine.execBmpReadStatus s
  | .bmpReset => Sys2Proof.Machine.execBmpReset s
  | .bhPowerDown => Sys2Proof.Machine.execBhPowerDown s
  | .bhPowerUp => Sys2Proof.Machine.execBhPowerUp s
  | .bhReset => Sys2Proof.Machine.execBhReset s
  | .bhContHigh => Sys2Proof.Machine.execBhContHigh s
  | .bhContUhigh => Sys2Proof.Machine.execBhContUhigh s
  | .bhContLow => Sys2Proof.Machine.execBhContLow s
  | .bhOtHigh => Sys2Proof.Machine.execBhOtHigh s
  | .bhOtUhigh => Sys2Proof.Machine.execBhOtUhigh s
  | .bhOtLow => Sys2Proof.Machine.execBhOtLow s
  | .bmpRegCalib => Sys2Proof.Machine.execBmpRegCalib s
  | .bmpRegId => Sys2Proof.Machine.execBmpRegId s
  | .bmpRegReset => Sys2Proof.Machine.execBmpRegReset s
  | .bmpRegStatus => Sys2Proof.Machine.execBmpRegStatus s
  | .bmpRegCtrl => Sys2Proof.Machine.execBmpRegCtrl s
  | .bmpRegConfig => Sys2Proof.Machine.execBmpRegConfig s
  | .bmpRegPress => Sys2Proof.Machine.execBmpRegPress s
  | .bmpRegTemp => Sys2Proof.Machine.execBmpRegTemp s

end Sys2Proof.Machine
end

