-- ==== Sys2Proof/Machine/Step.lean ====
section
/-! DEFINITION. One step of the machine: the host's action or one step of the SCSE (00_scope R11), and
the placing of a table word where the next step runs it. -/

namespace Sys2Proof.Machine

/-- One step. With no host action left and SEQ at IDLE nothing happens (R257: "idle is its only resting
state"). -/
def step (s : State) : Host.Outcome State Fault Refusal :=
  match turn s with
  | .host t => .next t
  | .scse t =>
    match fetch t with
    | .idle => .next t
    | .run i => exec i t
    | .illegal => .fault .sequencerState

/-- `s` with the table word `w` where the next step runs it (log 12). -/
def State.withFetchWord (s : State) (nbits w : Nat) : State :=
  match decodeTableWord nbits w with
  | some i => placeInstr i (BitVec.ofNat 32 w) s
  | none => placeHostWord (BitVec.ofNat 32 w) s

end Sys2Proof.Machine
end

