-- ==== Sys2Proof/Safety.lean ====
section
/-! DEFINITION. What a safe state and a safe run are, in the terms claims use: where a run may start,
the invariants of the registers, of the sequencer and of what has been seen on the bus, and the host's
duty (60_exceptions R260, 70_reset R281). None of these changes what a step does. -/

namespace Sys2Proof.Machine

/-- A state in which a run starts: after reset, with any parameters, any host actions, any transport
answers and any timer ticks to come (R44). -/
def State.start (p : Params) (h : List HostAct) (a : List Answer) (k : List Nat) : State :=
  { State.reset with params := p, host := h, answers := a, ticks := k }

/-- How many steps a command has (R136, R137, R166 to R171); a wire row is one step of a command. -/
def stepCount : Instr → Nat
  | .bhInit => 3
  | .bhRead => 4
  | .bmpInit => 5
  | .bmpReadT => 2
  | .bmpReadP => 3
  | .bmpReadId => 2
  | .bmpReadStatus => 2
  | .bmpReset => 2
  | .bhPowerDown | .bhPowerUp | .bhReset => 1
  | .bhContHigh | .bhContUhigh | .bhContLow => 1
  | .bhOtHigh | .bhOtUhigh | .bhOtLow => 1
  | .bmpRegCalib | .bmpRegId | .bmpRegReset | .bmpRegStatus => 1
  | .bmpRegCtrl | .bmpRegConfig | .bmpRegPress | .bmpRegTemp => 1

/-- The command `i` is in progress, at step `k` (R26). -/
def State.at (s : State) (i : Instr) (k : Nat) : Prop :=
  s.seq.op = opcodeOf i ∧ s.seq.step = BitVec.ofNat 3 k

/-- SEQ is IDLE or at a step of a command (R26: "no sequence has more than 5 steps"). -/
def SeqLegal (s : State) : Prop :=
  s.seq = Seq.idle ∨
    ∃ i k, i.isHost = true ∧ k < stepCount i ∧ s.at i k

/-- "`BUSY = 1` exactly when `pc` is not IDLE" (R26). -/
def BusyMatchesSeq (s : State) : Prop := s.busy = true ↔ s.seq ≠ Seq.idle

/-- The flags and ERRINFO agree (R27, R29, R31): "`ERR = 1` exactly when `ERR_CODE != 0`"; code 7 is
never written; the bits without a field are zero; a command in progress has DONE and ERR clear, and
ERR comes with DONE. -/
def ErrMatches (s : State) : Prop :=
  (s.err = true ↔ errCode s.errInfo ≠ 0#3) ∧ errCode s.errInfo ≠ 7#3 ∧
    s.errInfo = errInfoWord (errOp s.errInfo) (errCode s.errInfo) ∧
    (s.busy = true → s.done = false ∧ s.err = false) ∧ (s.err = true → s.done = true)

/-- The bits of the registers that hold no field are zero (R33, R34, R35, R39). -/
def ReservedZero (s : State) : Prop :=
  s.bhCfg &&& ~~~bhCfgMask = 0#32 ∧ s.bmpCfg &&& ~~~bmpCfgMask = 0#32 ∧
    s.lux &&& 0xFFFF0000#32 = 0#32 ∧ s.aux &&& 0xFFFFFC00#32 = 0#32

/-- Past its admission step a command has found its ready flag as it needs it (R135, R160), BH_INIT and
a constructed BH1750 driver have a legal RES (R120), and BH_READ waits only in one-time mode (R137). -/
def Admitted (s : State) : Prop :=
  (s.bhReady = true → bhRes s.bhCfg ≠ 0b10#2) ∧
    (s.seq.op = opcodeOf .bhInit → s.seq.step ≠ 0#3 → s.bhReady = false ∧ bhRes s.bhCfg ≠ 0b10#2) ∧
    (s.seq.op = opcodeOf .bhRead → s.seq.step ≠ 0#3 → s.bhReady = true) ∧
    (s.at .bhRead 1 → bhOneTime s.bhCfg = true) ∧
    (s.seq.op = opcodeOf .bmpInit → s.seq.step ≠ 0#3 → s.bmpReady = false) ∧
    ∀ i, i ∈ [Instr.bmpReadT, .bmpReadP, .bmpReadId, .bmpReadStatus, .bmpReset] →
      s.seq.op = opcodeOf i → s.seq.step ≠ 0#3 → s.bmpReady = true

/-- In the delay step of BhSend `c_lat` is the byte of the wire command that was selected (R134). -/
def LatchMatches (s : State) : Prop :=
  (s.at .bhInit 1 → (cmdSelect (bhOneTime s.bhCfg) (bhRes s.bhCfg)).map WireCmd.byte = some s.cLat) ∧
    (s.at .bhRead 1 → (trigSelect (bhRes s.bhCfg)).map WireCmd.byte = some s.cLat)

/-- The invariant of the registers and the sequencer. -/
def RegInv (s : State) : Prop :=
  SeqLegal s ∧ BusyMatchesSeq s ∧ ErrMatches s ∧ ReservedZero s ∧ Admitted s ∧ LatchMatches s

/-- Every transaction seen on the bus, and the one in flight, is one of the table of R70, and an `ok`
answer brought the bytes asked for (R61). -/
def EventListed (e : BusEvent) : Prop :=
  match e with
  | .txn t (.ok bs) => t.listed = true ∧ bs.length = t.rxLen
  | .txn t (.err _) => t.listed = true
  | .txn _ .never => False
  | .delay _ => True
  | .reset none => True
  | .reset (some t) => t.listed = true

def TraceListed (s : State) : Prop :=
  (∀ e ∈ s.trace, EventListed e) ∧ ∀ t, s.inflight = some t → t.listed = true

/-- `older` is a wire command `c` that a BH1750 took. -/
def IsWireOk (older : BusEvent) (c : Byte) : Prop :=
  ∃ a, isBhAddr a = true ∧ older = .txn (.write a [c]) (.ok [])

/-- What may stand next after an event: after a wire command that was taken, the Delay with its settle
label, or a reset (R134, R270). -/
def SettleNext (older newer : BusEvent) : Prop :=
  ∀ c, IsWireOk older c → (∃ n, settleMs c = some n ∧ newer = .delay n) ∨ ∃ cut, newer = .reset cut

/-- Every neighbouring pair of a trace (newest first) stands so. -/
def TraceSettles : List BusEvent → Prop
  | [] => True
  | [_] => True
  | newer :: older :: rest => SettleNext older newer ∧ TraceSettles (older :: rest)

/-- The SCSE is in the delay step of a BhSend of `c` (R134). -/
def SettlingAfter (s : State) (c : Byte) : Prop := (s.at .bhInit 1 ∨ s.at .bhRead 1) ∧ s.cLat = c

/-- "The delay always follows a successful write" (R134): in the trace so far, and, if its newest event
is such a write, the SCSE is in the delay step of that command, from which, BUSY agreeing with SEQ, no
command write can take it. -/
def SettleInv (s : State) : Prop :=
  BusyMatchesSeq s ∧ TraceSettles s.trace ∧ ∀ e rest c, s.trace = e :: rest → IsWireOk e c → SettlingAfter s c

/-- The read of the temperature registers that a BMP280 answered. -/
def IsTempOk (e : BusEvent) : Prop :=
  ∃ a bs, e = .txn (.writeRead a [0xFA#8] 3) (.ok bs)

/-- A read of the pressure registers. -/
def IsPressRead (e : BusEvent) : Prop := ∃ a ans, e = .txn (.writeRead a [0xF7#8] 3) ans

/-- "temperature ADC must be read before pressure ADC in the same logical read" (R75): the event before
any pressure read is a temperature read that succeeded. -/
def TempBeforePress : List BusEvent → Prop
  | [] => True
  | [e] => ¬ IsPressRead e
  | newer :: older :: rest => (IsPressRead newer → IsTempOk older) ∧ TempBeforePress (older :: rest)

/-- … and in step s1 of BMP_READ_P the newest event is that temperature read. -/
def PairingInv (s : State) : Prop :=
  TempBeforePress s.trace ∧ (s.at .bmpReadP 1 → ∃ e rest, s.trace = e :: rest ∧ IsTempOk e)

/-- The four events of a BMP_INIT that succeeds, newest first, for the calibration block `k` (R166). -/
def initEvents (s : State) (k : List Byte) : List BusEvent :=
  [ .txn (.write (bmpAddr s.bmpCfg) [0xF5#8, configByte s.params s.bmpCfg]) (.ok []),
    .txn (.write (bmpAddr s.bmpCfg) [0xF4#8, ctrlByte s.params s.bmpCfg]) (.ok []),
    .delay 2,
    .txn (.writeRead (bmpAddr s.bmpCfg) [0x88#8] 24) (.ok k) ]

/-- A reset stands in the list. -/
def hasReset : List BusEvent → Bool
  | [] => false
  | .reset _ :: _ => true
  | .txn _ _ :: rest => hasReset rest
  | .delay _ :: rest => hasReset rest

/-- A constructed BMP280 driver has its evidence on the bus: the calibration read, the 2 ms delay and
the two writes, in this order, all answered `ok`, with the configuration that is still in force, no
reset since, and the coefficients are those of the block read (R22, R173). -/
def ConstructedInv (s : State) : Prop :=
  s.bmpReady = true →
    ∃ k since before, k.length = 24 ∧ s.x = calParse k ∧
      s.trace = since ++ initEvents s k ++ before ∧ hasReset since = false

/-- During BMP_INIT the events of its steps so far are the newest of the trace (R166, R75). -/
def ConstructingInv (s : State) : Prop :=
  ∀ j, 1 ≤ j → j ≤ 4 → s.at .bmpInit j →
    ∃ k before, k.length = 24 ∧ s.x = calParse k ∧
      s.trace = (initEvents s k).drop (4 - j) ++ before

/-- The evidence of construction, with the agreement of BUSY and SEQ that keeps BMP_CFG locked. -/
def EvidenceInv (s : State) : Prop := BusyMatchesSeq s ∧ ConstructedInv s ∧ ConstructingInv s

/-- The host's next action writes CMD while a command runs, which it must not do (R260, R281). -/
def hostBreaksProtocol (s : State) : Bool :=
  match s.host with
  | .write i _ :: _ => s.busy && decide (i = regIndex .cmd)
  | _ => false

/-- The host's next action is RST. -/
def resetNext (s : State) : Prop := ∃ rest, s.host = .rst :: rest

/-- The transport does not answer the transaction of the step that runs now: this call never returns, or
the list of answers is at its end (R258). -/
def Unanswered (s : State) : Prop := s.answers = [] ∨ ∃ rest, s.answers = .never :: rest

/-- The five result registers (R249). -/
def resultsOf (s : State) : List Word := [s.lux, s.temp, s.press, s.tFine, s.aux]

/-- The transaction that the step in SEQ makes, if it makes one (R70, R136, R137, R166 to R171). -/
def stepTxn (s : State) : Option Txn :=
  match fetch s, s.seq.step.toNat with
  | .run .bhInit, 0 =>
    if s.bhReady then none
    else (cmdSelect (bhOneTime s.bhCfg) (bhRes s.bhCfg)).map fun c => .write (bhAddr s.bhCfg) [c.byte]
  | .run .bhRead, 0 =>
    if s.bhReady && bhOneTime s.bhCfg then
      (trigSelect (bhRes s.bhCfg)).map fun c => .write (bhAddr s.bhCfg) [c.byte]
    else none
  | .run .bhRead, 2 => some (.read (bhAddr s.bhCfg) 2)
  | .run .bmpInit, 0 => if s.bmpReady then none else some (.writeRead (bmpAddr s.bmpCfg) [0x88#8] 24)
  | .run .bmpInit, 2 => some (.write (bmpAddr s.bmpCfg) [0xF4#8, ctrlByte s.params s.bmpCfg])
  | .run .bmpInit, 3 => some (.write (bmpAddr s.bmpCfg) [0xF5#8, configByte s.params s.bmpCfg])
  | .run .bmpReadT, 0 => if s.bmpReady then some (.writeRead (bmpAddr s.bmpCfg) [0xFA#8] 3) else none
  | .run .bmpReadP, 0 => if s.bmpReady then some (.writeRead (bmpAddr s.bmpCfg) [0xFA#8] 3) else none
  | .run .bmpReadP, 1 => some (.writeRead (bmpAddr s.bmpCfg) [0xF7#8] 3)
  | .run .bmpReadId, 0 => if s.bmpReady then some (.writeRead (bmpAddr s.bmpCfg) [0xD0#8] 1) else none
  | .run .bmpReadStatus, 0 => if s.bmpReady then some (.writeRead (bmpAddr s.bmpCfg) [0xF3#8] 1) else none
  | .run .bmpReset, 0 =>
    if s.bmpReady then some (.write (bmpAddr s.bmpCfg) [0xE0#8, s.params.resetWord]) else none
  | _, _ => none

/-- What a step that makes the transaction `t` leaves when the transport answers `ok` with `bs`, but for
the bytes it binds: the answer used up and recorded, nothing in flight, SEQ at the next step (R26). -/
def okStep (t : Txn) (bs : List Byte) (rest : List Answer) (s : State) : State :=
  { s with
    answers := rest
    inflight := none
    trace := .txn t (.ok bs) :: s.trace
    seq := ⟨s.seq.op, s.seq.step + 1⟩
    timer := 0 }

/-- The state after a step of the command with opcode `op` raised the exception with code `code`: flags,
ERRINFO and SEQ as R248 says, everything else as it was. -/
def abortedWith (op : BitVec 4) (code : BitVec 3) (s : State) : State :=
  { s with
    err := true
    errInfo := (op.zeroExtend 32 <<< 4) ||| code.zeroExtend 32
    busy := false
    done := true
    seq := ⟨0, 0⟩ }

/-- The state after the transport answered `err(k)` to the transaction `t` of a step of the command with
opcode `op`: TransportFailure(k) (R241, R248). -/
def errStep (op : BitVec 4) (t : Txn) (k : BusErr) (rest : List Answer) (s : State) : State :=
  abortedWith op 1
    { s with answers := rest, inflight := none, trace := .txn t (.err k) :: s.trace, errKind := k }

/-- The state after a command ended by `done` (R10). -/
def doneStep (s : State) : State := { s with busy := false, done := true, seq := ⟨0, 0⟩ }

end Sys2Proof.Machine
end

