-- ==== Sys2Proof/Laws/State.lean ====
section
/-! SUPPORT. One lemma per field per update of State, each true by rfl, so that no later proof unfolds a
record update. -/

namespace Sys2Proof.Machine

@[simp] theorem advance_x (s : State) : (advance s).x = s.x := rfl
@[simp] theorem advance_tFine (s : State) : (advance s).tFine = s.tFine := rfl
@[simp] theorem advance_seq (s : State) : (advance s).seq = ⟨s.seq.op, s.seq.step + 1⟩ := rfl
@[simp] theorem advance_busy (s : State) : (advance s).busy = s.busy := rfl
@[simp] theorem advance_done (s : State) : (advance s).done = s.done := rfl
@[simp] theorem advance_err (s : State) : (advance s).err = s.err := rfl
@[simp] theorem advance_bhReady (s : State) : (advance s).bhReady = s.bhReady := rfl
@[simp] theorem advance_bmpReady (s : State) : (advance s).bmpReady = s.bmpReady := rfl
@[simp] theorem advance_errInfo (s : State) : (advance s).errInfo = s.errInfo := rfl
@[simp] theorem advance_errKind (s : State) : (advance s).errKind = s.errKind := rfl
@[simp] theorem advance_bhCfg (s : State) : (advance s).bhCfg = s.bhCfg := rfl
@[simp] theorem advance_bmpCfg (s : State) : (advance s).bmpCfg = s.bmpCfg := rfl
@[simp] theorem advance_lux (s : State) : (advance s).lux = s.lux := rfl
@[simp] theorem advance_temp (s : State) : (advance s).temp = s.temp := rfl
@[simp] theorem advance_press (s : State) : (advance s).press = s.press := rfl
@[simp] theorem advance_aux (s : State) : (advance s).aux = s.aux := rfl
@[simp] theorem advance_cLat (s : State) : (advance s).cLat = s.cLat := rfl
@[simp] theorem advance_adcTBuf (s : State) : (advance s).adcTBuf = s.adcTBuf := rfl
@[simp] theorem advance_adcPBuf (s : State) : (advance s).adcPBuf = s.adcPBuf := rfl
@[simp] theorem advance_bhBuf (s : State) : (advance s).bhBuf = s.bhBuf := rfl
@[simp] theorem advance_auxBuf (s : State) : (advance s).auxBuf = s.auxBuf := rfl
@[simp] theorem advance_timer (s : State) : (advance s).timer = 0 := rfl
@[simp] theorem advance_inflight (s : State) : (advance s).inflight = s.inflight := rfl
@[simp] theorem advance_params (s : State) : (advance s).params = s.params := rfl
@[simp] theorem advance_host (s : State) : (advance s).host = s.host := rfl
@[simp] theorem advance_answers (s : State) : (advance s).answers = s.answers := rfl
@[simp] theorem advance_ticks (s : State) : (advance s).ticks = s.ticks := rfl
@[simp] theorem advance_trace (s : State) : (advance s).trace = s.trace := rfl
@[simp] theorem advance_reads (s : State) : (advance s).reads = s.reads := rfl
@[simp] theorem advance_freeCtr (s : State) : (advance s).freeCtr = s.freeCtr := rfl

@[simp] theorem jumpTo_x (k : BitVec 3) (s : State) : (jumpTo k s).x = s.x := rfl
@[simp] theorem jumpTo_tFine (k : BitVec 3) (s : State) : (jumpTo k s).tFine = s.tFine := rfl
@[simp] theorem jumpTo_seq (k : BitVec 3) (s : State) : (jumpTo k s).seq = ⟨s.seq.op, k⟩ := rfl
@[simp] theorem jumpTo_busy (k : BitVec 3) (s : State) : (jumpTo k s).busy = s.busy := rfl
@[simp] theorem jumpTo_done (k : BitVec 3) (s : State) : (jumpTo k s).done = s.done := rfl
@[simp] theorem jumpTo_err (k : BitVec 3) (s : State) : (jumpTo k s).err = s.err := rfl
@[simp] theorem jumpTo_bhReady (k : BitVec 3) (s : State) : (jumpTo k s).bhReady = s.bhReady := rfl
@[simp] theorem jumpTo_bmpReady (k : BitVec 3) (s : State) : (jumpTo k s).bmpReady = s.bmpReady := rfl
@[simp] theorem jumpTo_errInfo (k : BitVec 3) (s : State) : (jumpTo k s).errInfo = s.errInfo := rfl
@[simp] theorem jumpTo_errKind (k : BitVec 3) (s : State) : (jumpTo k s).errKind = s.errKind := rfl
@[simp] theorem jumpTo_bhCfg (k : BitVec 3) (s : State) : (jumpTo k s).bhCfg = s.bhCfg := rfl
@[simp] theorem jumpTo_bmpCfg (k : BitVec 3) (s : State) : (jumpTo k s).bmpCfg = s.bmpCfg := rfl
@[simp] theorem jumpTo_lux (k : BitVec 3) (s : State) : (jumpTo k s).lux = s.lux := rfl
@[simp] theorem jumpTo_temp (k : BitVec 3) (s : State) : (jumpTo k s).temp = s.temp := rfl
@[simp] theorem jumpTo_press (k : BitVec 3) (s : State) : (jumpTo k s).press = s.press := rfl
@[simp] theorem jumpTo_aux (k : BitVec 3) (s : State) : (jumpTo k s).aux = s.aux := rfl
@[simp] theorem jumpTo_cLat (k : BitVec 3) (s : State) : (jumpTo k s).cLat = s.cLat := rfl
@[simp] theorem jumpTo_adcTBuf (k : BitVec 3) (s : State) : (jumpTo k s).adcTBuf = s.adcTBuf := rfl
@[simp] theorem jumpTo_adcPBuf (k : BitVec 3) (s : State) : (jumpTo k s).adcPBuf = s.adcPBuf := rfl
@[simp] theorem jumpTo_bhBuf (k : BitVec 3) (s : State) : (jumpTo k s).bhBuf = s.bhBuf := rfl
@[simp] theorem jumpTo_auxBuf (k : BitVec 3) (s : State) : (jumpTo k s).auxBuf = s.auxBuf := rfl
@[simp] theorem jumpTo_timer (k : BitVec 3) (s : State) : (jumpTo k s).timer = 0 := rfl
@[simp] theorem jumpTo_inflight (k : BitVec 3) (s : State) : (jumpTo k s).inflight = s.inflight := rfl
@[simp] theorem jumpTo_params (k : BitVec 3) (s : State) : (jumpTo k s).params = s.params := rfl
@[simp] theorem jumpTo_host (k : BitVec 3) (s : State) : (jumpTo k s).host = s.host := rfl
@[simp] theorem jumpTo_answers (k : BitVec 3) (s : State) : (jumpTo k s).answers = s.answers := rfl
@[simp] theorem jumpTo_ticks (k : BitVec 3) (s : State) : (jumpTo k s).ticks = s.ticks := rfl
@[simp] theorem jumpTo_trace (k : BitVec 3) (s : State) : (jumpTo k s).trace = s.trace := rfl
@[simp] theorem jumpTo_reads (k : BitVec 3) (s : State) : (jumpTo k s).reads = s.reads := rfl
@[simp] theorem jumpTo_freeCtr (k : BitVec 3) (s : State) : (jumpTo k s).freeCtr = s.freeCtr := rfl

@[simp] theorem finish_x (s : State) : (finish s).x = s.x := rfl
@[simp] theorem finish_tFine (s : State) : (finish s).tFine = s.tFine := rfl
@[simp] theorem finish_seq (s : State) : (finish s).seq = Seq.idle := rfl
@[simp] theorem finish_busy (s : State) : (finish s).busy = false := rfl
@[simp] theorem finish_done (s : State) : (finish s).done = true := rfl
@[simp] theorem finish_err (s : State) : (finish s).err = s.err := rfl
@[simp] theorem finish_bhReady (s : State) : (finish s).bhReady = s.bhReady := rfl
@[simp] theorem finish_bmpReady (s : State) : (finish s).bmpReady = s.bmpReady := rfl
@[simp] theorem finish_errInfo (s : State) : (finish s).errInfo = s.errInfo := rfl
@[simp] theorem finish_errKind (s : State) : (finish s).errKind = s.errKind := rfl
@[simp] theorem finish_bhCfg (s : State) : (finish s).bhCfg = s.bhCfg := rfl
@[simp] theorem finish_bmpCfg (s : State) : (finish s).bmpCfg = s.bmpCfg := rfl
@[simp] theorem finish_lux (s : State) : (finish s).lux = s.lux := rfl
@[simp] theorem finish_temp (s : State) : (finish s).temp = s.temp := rfl
@[simp] theorem finish_press (s : State) : (finish s).press = s.press := rfl
@[simp] theorem finish_aux (s : State) : (finish s).aux = s.aux := rfl
@[simp] theorem finish_cLat (s : State) : (finish s).cLat = s.cLat := rfl
@[simp] theorem finish_adcTBuf (s : State) : (finish s).adcTBuf = s.adcTBuf := rfl
@[simp] theorem finish_adcPBuf (s : State) : (finish s).adcPBuf = s.adcPBuf := rfl
@[simp] theorem finish_bhBuf (s : State) : (finish s).bhBuf = s.bhBuf := rfl
@[simp] theorem finish_auxBuf (s : State) : (finish s).auxBuf = s.auxBuf := rfl
@[simp] theorem finish_timer (s : State) : (finish s).timer = s.timer := rfl
@[simp] theorem finish_inflight (s : State) : (finish s).inflight = s.inflight := rfl
@[simp] theorem finish_params (s : State) : (finish s).params = s.params := rfl
@[simp] theorem finish_host (s : State) : (finish s).host = s.host := rfl
@[simp] theorem finish_answers (s : State) : (finish s).answers = s.answers := rfl
@[simp] theorem finish_ticks (s : State) : (finish s).ticks = s.ticks := rfl
@[simp] theorem finish_trace (s : State) : (finish s).trace = s.trace := rfl
@[simp] theorem finish_reads (s : State) : (finish s).reads = s.reads := rfl
@[simp] theorem finish_freeCtr (s : State) : (finish s).freeCtr = s.freeCtr := rfl

@[simp] theorem acknowledge_x (s : State) : (acknowledge s).x = s.x := rfl
@[simp] theorem acknowledge_tFine (s : State) : (acknowledge s).tFine = s.tFine := rfl
@[simp] theorem acknowledge_seq (s : State) : (acknowledge s).seq = s.seq := rfl
@[simp] theorem acknowledge_busy (s : State) : (acknowledge s).busy = s.busy := rfl
@[simp] theorem acknowledge_done (s : State) : (acknowledge s).done = false := rfl
@[simp] theorem acknowledge_err (s : State) : (acknowledge s).err = false := rfl
@[simp] theorem acknowledge_bhReady (s : State) : (acknowledge s).bhReady = s.bhReady := rfl
@[simp] theorem acknowledge_bmpReady (s : State) : (acknowledge s).bmpReady = s.bmpReady := rfl
@[simp] theorem acknowledge_errInfo (s : State) : (acknowledge s).errInfo = 0 := rfl
@[simp] theorem acknowledge_errKind (s : State) : (acknowledge s).errKind = s.errKind := rfl
@[simp] theorem acknowledge_bhCfg (s : State) : (acknowledge s).bhCfg = s.bhCfg := rfl
@[simp] theorem acknowledge_bmpCfg (s : State) : (acknowledge s).bmpCfg = s.bmpCfg := rfl
@[simp] theorem acknowledge_lux (s : State) : (acknowledge s).lux = s.lux := rfl
@[simp] theorem acknowledge_temp (s : State) : (acknowledge s).temp = s.temp := rfl
@[simp] theorem acknowledge_press (s : State) : (acknowledge s).press = s.press := rfl
@[simp] theorem acknowledge_aux (s : State) : (acknowledge s).aux = s.aux := rfl
@[simp] theorem acknowledge_cLat (s : State) : (acknowledge s).cLat = s.cLat := rfl
@[simp] theorem acknowledge_adcTBuf (s : State) : (acknowledge s).adcTBuf = s.adcTBuf := rfl
@[simp] theorem acknowledge_adcPBuf (s : State) : (acknowledge s).adcPBuf = s.adcPBuf := rfl
@[simp] theorem acknowledge_bhBuf (s : State) : (acknowledge s).bhBuf = s.bhBuf := rfl
@[simp] theorem acknowledge_auxBuf (s : State) : (acknowledge s).auxBuf = s.auxBuf := rfl
@[simp] theorem acknowledge_timer (s : State) : (acknowledge s).timer = s.timer := rfl
@[simp] theorem acknowledge_inflight (s : State) : (acknowledge s).inflight = s.inflight := rfl
@[simp] theorem acknowledge_params (s : State) : (acknowledge s).params = s.params := rfl
@[simp] theorem acknowledge_host (s : State) : (acknowledge s).host = s.host := rfl
@[simp] theorem acknowledge_answers (s : State) : (acknowledge s).answers = s.answers := rfl
@[simp] theorem acknowledge_ticks (s : State) : (acknowledge s).ticks = s.ticks := rfl
@[simp] theorem acknowledge_trace (s : State) : (acknowledge s).trace = s.trace := rfl
@[simp] theorem acknowledge_reads (s : State) : (acknowledge s).reads = s.reads := rfl
@[simp] theorem acknowledge_freeCtr (s : State) : (acknowledge s).freeCtr = s.freeCtr := rfl

@[simp] theorem answered_x (t : Txn) (a : Answer) (r : List Answer) (s : State) : (answered t a r s).x = s.x := rfl
@[simp] theorem answered_tFine (t : Txn) (a : Answer) (r : List Answer) (s : State) : (answered t a r s).tFine = s.tFine := rfl
@[simp] theorem answered_seq (t : Txn) (a : Answer) (r : List Answer) (s : State) : (answered t a r s).seq = s.seq := rfl
@[simp] theorem answered_busy (t : Txn) (a : Answer) (r : List Answer) (s : State) : (answered t a r s).busy = s.busy := rfl
@[simp] theorem answered_done (t : Txn) (a : Answer) (r : List Answer) (s : State) : (answered t a r s).done = s.done := rfl
@[simp] theorem answered_err (t : Txn) (a : Answer) (r : List Answer) (s : State) : (answered t a r s).err = s.err := rfl
@[simp] theorem answered_bhReady (t : Txn) (a : Answer) (r : List Answer) (s : State) : (answered t a r s).bhReady = s.bhReady := rfl
@[simp] theorem answered_bmpReady (t : Txn) (a : Answer) (r : List Answer) (s : State) : (answered t a r s).bmpReady = s.bmpReady := rfl
@[simp] theorem answered_errInfo (t : Txn) (a : Answer) (r : List Answer) (s : State) : (answered t a r s).errInfo = s.errInfo := rfl
@[simp] theorem answered_errKind (t : Txn) (a : Answer) (r : List Answer) (s : State) : (answered t a r s).errKind = s.errKind := rfl
@[simp] theorem answered_bhCfg (t : Txn) (a : Answer) (r : List Answer) (s : State) : (answered t a r s).bhCfg = s.bhCfg := rfl
@[simp] theorem answered_bmpCfg (t : Txn) (a : Answer) (r : List Answer) (s : State) : (answered t a r s).bmpCfg = s.bmpCfg := rfl
@[simp] theorem answered_lux (t : Txn) (a : Answer) (r : List Answer) (s : State) : (answered t a r s).lux = s.lux := rfl
@[simp] theorem answered_temp (t : Txn) (a : Answer) (r : List Answer) (s : State) : (answered t a r s).temp = s.temp := rfl
@[simp] theorem answered_press (t : Txn) (a : Answer) (r : List Answer) (s : State) : (answered t a r s).press = s.press := rfl
@[simp] theorem answered_aux (t : Txn) (a : Answer) (r : List Answer) (s : State) : (answered t a r s).aux = s.aux := rfl
@[simp] theorem answered_cLat (t : Txn) (a : Answer) (r : List Answer) (s : State) : (answered t a r s).cLat = s.cLat := rfl
@[simp] theorem answered_adcTBuf (t : Txn) (a : Answer) (r : List Answer) (s : State) : (answered t a r s).adcTBuf = s.adcTBuf := rfl
@[simp] theorem answered_adcPBuf (t : Txn) (a : Answer) (r : List Answer) (s : State) : (answered t a r s).adcPBuf = s.adcPBuf := rfl
@[simp] theorem answered_bhBuf (t : Txn) (a : Answer) (r : List Answer) (s : State) : (answered t a r s).bhBuf = s.bhBuf := rfl
@[simp] theorem answered_auxBuf (t : Txn) (a : Answer) (r : List Answer) (s : State) : (answered t a r s).auxBuf = s.auxBuf := rfl
@[simp] theorem answered_timer (t : Txn) (a : Answer) (r : List Answer) (s : State) : (answered t a r s).timer = s.timer := rfl
@[simp] theorem answered_inflight (t : Txn) (a : Answer) (r : List Answer) (s : State) : (answered t a r s).inflight = none := rfl
@[simp] theorem answered_params (t : Txn) (a : Answer) (r : List Answer) (s : State) : (answered t a r s).params = s.params := rfl
@[simp] theorem answered_host (t : Txn) (a : Answer) (r : List Answer) (s : State) : (answered t a r s).host = s.host := rfl
@[simp] theorem answered_answers (t : Txn) (a : Answer) (r : List Answer) (s : State) : (answered t a r s).answers = r := rfl
@[simp] theorem answered_ticks (t : Txn) (a : Answer) (r : List Answer) (s : State) : (answered t a r s).ticks = s.ticks := rfl
@[simp] theorem answered_trace (t : Txn) (a : Answer) (r : List Answer) (s : State) : (answered t a r s).trace = .txn t a :: s.trace := rfl
@[simp] theorem answered_reads (t : Txn) (a : Answer) (r : List Answer) (s : State) : (answered t a r s).reads = s.reads := rfl
@[simp] theorem answered_freeCtr (t : Txn) (a : Answer) (r : List Answer) (s : State) : (answered t a r s).freeCtr = s.freeCtr := rfl

@[simp] theorem raiseWith_x (op : BitVec 4) (e : Exc) (s : State) : (raiseWith op e s).x = s.x := rfl
@[simp] theorem raiseWith_tFine (op : BitVec 4) (e : Exc) (s : State) : (raiseWith op e s).tFine = s.tFine := rfl
@[simp] theorem raiseWith_seq (op : BitVec 4) (e : Exc) (s : State) : (raiseWith op e s).seq = Seq.idle := rfl
@[simp] theorem raiseWith_busy (op : BitVec 4) (e : Exc) (s : State) : (raiseWith op e s).busy = false := rfl
@[simp] theorem raiseWith_done (op : BitVec 4) (e : Exc) (s : State) : (raiseWith op e s).done = true := rfl
@[simp] theorem raiseWith_err (op : BitVec 4) (e : Exc) (s : State) : (raiseWith op e s).err = true := rfl
@[simp] theorem raiseWith_bhReady (op : BitVec 4) (e : Exc) (s : State) : (raiseWith op e s).bhReady = s.bhReady := rfl
@[simp] theorem raiseWith_bmpReady (op : BitVec 4) (e : Exc) (s : State) : (raiseWith op e s).bmpReady = s.bmpReady := rfl
@[simp] theorem raiseWith_errInfo (op : BitVec 4) (e : Exc) (s : State) : (raiseWith op e s).errInfo = errInfoWord op e.code := rfl
@[simp] theorem raiseWith_errKind (op : BitVec 4) (e : Exc) (s : State) : (raiseWith op e s).errKind = errKindAfter e s.errKind := rfl
@[simp] theorem raiseWith_bhCfg (op : BitVec 4) (e : Exc) (s : State) : (raiseWith op e s).bhCfg = s.bhCfg := rfl
@[simp] theorem raiseWith_bmpCfg (op : BitVec 4) (e : Exc) (s : State) : (raiseWith op e s).bmpCfg = s.bmpCfg := rfl
@[simp] theorem raiseWith_lux (op : BitVec 4) (e : Exc) (s : State) : (raiseWith op e s).lux = s.lux := rfl
@[simp] theorem raiseWith_temp (op : BitVec 4) (e : Exc) (s : State) : (raiseWith op e s).temp = s.temp := rfl
@[simp] theorem raiseWith_press (op : BitVec 4) (e : Exc) (s : State) : (raiseWith op e s).press = s.press := rfl
@[simp] theorem raiseWith_aux (op : BitVec 4) (e : Exc) (s : State) : (raiseWith op e s).aux = s.aux := rfl
@[simp] theorem raiseWith_cLat (op : BitVec 4) (e : Exc) (s : State) : (raiseWith op e s).cLat = s.cLat := rfl
@[simp] theorem raiseWith_adcTBuf (op : BitVec 4) (e : Exc) (s : State) : (raiseWith op e s).adcTBuf = s.adcTBuf := rfl
@[simp] theorem raiseWith_adcPBuf (op : BitVec 4) (e : Exc) (s : State) : (raiseWith op e s).adcPBuf = s.adcPBuf := rfl
@[simp] theorem raiseWith_bhBuf (op : BitVec 4) (e : Exc) (s : State) : (raiseWith op e s).bhBuf = s.bhBuf := rfl
@[simp] theorem raiseWith_auxBuf (op : BitVec 4) (e : Exc) (s : State) : (raiseWith op e s).auxBuf = s.auxBuf := rfl
@[simp] theorem raiseWith_timer (op : BitVec 4) (e : Exc) (s : State) : (raiseWith op e s).timer = s.timer := rfl
@[simp] theorem raiseWith_inflight (op : BitVec 4) (e : Exc) (s : State) : (raiseWith op e s).inflight = s.inflight := rfl
@[simp] theorem raiseWith_params (op : BitVec 4) (e : Exc) (s : State) : (raiseWith op e s).params = s.params := rfl
@[simp] theorem raiseWith_host (op : BitVec 4) (e : Exc) (s : State) : (raiseWith op e s).host = s.host := rfl
@[simp] theorem raiseWith_answers (op : BitVec 4) (e : Exc) (s : State) : (raiseWith op e s).answers = s.answers := rfl
@[simp] theorem raiseWith_ticks (op : BitVec 4) (e : Exc) (s : State) : (raiseWith op e s).ticks = s.ticks := rfl
@[simp] theorem raiseWith_trace (op : BitVec 4) (e : Exc) (s : State) : (raiseWith op e s).trace = s.trace := rfl
@[simp] theorem raiseWith_reads (op : BitVec 4) (e : Exc) (s : State) : (raiseWith op e s).reads = s.reads := rfl
@[simp] theorem raiseWith_freeCtr (op : BitVec 4) (e : Exc) (s : State) : (raiseWith op e s).freeCtr = s.freeCtr := rfl

@[simp] theorem dropCalib_tFine (s : State) : (dropCalib s).tFine = s.tFine := by
  unfold dropCalib; split <;> rfl
@[simp] theorem dropCalib_seq (s : State) : (dropCalib s).seq = s.seq := by
  unfold dropCalib; split <;> rfl
@[simp] theorem dropCalib_busy (s : State) : (dropCalib s).busy = s.busy := by
  unfold dropCalib; split <;> rfl
@[simp] theorem dropCalib_done (s : State) : (dropCalib s).done = s.done := by
  unfold dropCalib; split <;> rfl
@[simp] theorem dropCalib_err (s : State) : (dropCalib s).err = s.err := by
  unfold dropCalib; split <;> rfl
@[simp] theorem dropCalib_bhReady (s : State) : (dropCalib s).bhReady = s.bhReady := by
  unfold dropCalib; split <;> rfl
@[simp] theorem dropCalib_bmpReady (s : State) : (dropCalib s).bmpReady = s.bmpReady := by
  unfold dropCalib; split <;> rfl
@[simp] theorem dropCalib_errInfo (s : State) : (dropCalib s).errInfo = s.errInfo := by
  unfold dropCalib; split <;> rfl
@[simp] theorem dropCalib_errKind (s : State) : (dropCalib s).errKind = s.errKind := by
  unfold dropCalib; split <;> rfl
@[simp] theorem dropCalib_bhCfg (s : State) : (dropCalib s).bhCfg = s.bhCfg := by
  unfold dropCalib; split <;> rfl
@[simp] theorem dropCalib_bmpCfg (s : State) : (dropCalib s).bmpCfg = s.bmpCfg := by
  unfold dropCalib; split <;> rfl
@[simp] theorem dropCalib_lux (s : State) : (dropCalib s).lux = s.lux := by
  unfold dropCalib; split <;> rfl
@[simp] theorem dropCalib_temp (s : State) : (dropCalib s).temp = s.temp := by
  unfold dropCalib; split <;> rfl
@[simp] theorem dropCalib_press (s : State) : (dropCalib s).press = s.press := by
  unfold dropCalib; split <;> rfl
@[simp] theorem dropCalib_aux (s : State) : (dropCalib s).aux = s.aux := by
  unfold dropCalib; split <;> rfl
@[simp] theorem dropCalib_cLat (s : State) : (dropCalib s).cLat = s.cLat := by
  unfold dropCalib; split <;> rfl
@[simp] theorem dropCalib_adcTBuf (s : State) : (dropCalib s).adcTBuf = s.adcTBuf := by
  unfold dropCalib; split <;> rfl
@[simp] theorem dropCalib_adcPBuf (s : State) : (dropCalib s).adcPBuf = s.adcPBuf := by
  unfold dropCalib; split <;> rfl
@[simp] theorem dropCalib_bhBuf (s : State) : (dropCalib s).bhBuf = s.bhBuf := by
  unfold dropCalib; split <;> rfl
@[simp] theorem dropCalib_auxBuf (s : State) : (dropCalib s).auxBuf = s.auxBuf := by
  unfold dropCalib; split <;> rfl
@[simp] theorem dropCalib_timer (s : State) : (dropCalib s).timer = s.timer := by
  unfold dropCalib; split <;> rfl
@[simp] theorem dropCalib_inflight (s : State) : (dropCalib s).inflight = s.inflight := by
  unfold dropCalib; split <;> rfl
@[simp] theorem dropCalib_params (s : State) : (dropCalib s).params = s.params := by
  unfold dropCalib; split <;> rfl
@[simp] theorem dropCalib_host (s : State) : (dropCalib s).host = s.host := by
  unfold dropCalib; split <;> rfl
@[simp] theorem dropCalib_answers (s : State) : (dropCalib s).answers = s.answers := by
  unfold dropCalib; split <;> rfl
@[simp] theorem dropCalib_ticks (s : State) : (dropCalib s).ticks = s.ticks := by
  unfold dropCalib; split <;> rfl
@[simp] theorem dropCalib_trace (s : State) : (dropCalib s).trace = s.trace := by
  unfold dropCalib; split <;> rfl
@[simp] theorem dropCalib_reads (s : State) : (dropCalib s).reads = s.reads := by
  unfold dropCalib; split <;> rfl

@[simp] theorem raise_x (e : Exc) (s : State) : (raise e s).x = (dropCalib s).x := by simp [raise]
@[simp] theorem raise_tFine (e : Exc) (s : State) : (raise e s).tFine = s.tFine := by simp [raise]
@[simp] theorem raise_seq (e : Exc) (s : State) : (raise e s).seq = Seq.idle := by simp [raise]
@[simp] theorem raise_busy (e : Exc) (s : State) : (raise e s).busy = false := by simp [raise]
@[simp] theorem raise_done (e : Exc) (s : State) : (raise e s).done = true := by simp [raise]
@[simp] theorem raise_err (e : Exc) (s : State) : (raise e s).err = true := by simp [raise]
@[simp] theorem raise_bhReady (e : Exc) (s : State) : (raise e s).bhReady = s.bhReady := by simp [raise]
@[simp] theorem raise_bmpReady (e : Exc) (s : State) : (raise e s).bmpReady = s.bmpReady := by simp [raise]
@[simp] theorem raise_errInfo (e : Exc) (s : State) : (raise e s).errInfo = errInfoWord s.seq.op e.code := by simp [raise]
@[simp] theorem raise_errKind (e : Exc) (s : State) : (raise e s).errKind = errKindAfter e s.errKind := by simp [raise]
@[simp] theorem raise_bhCfg (e : Exc) (s : State) : (raise e s).bhCfg = s.bhCfg := by simp [raise]
@[simp] theorem raise_bmpCfg (e : Exc) (s : State) : (raise e s).bmpCfg = s.bmpCfg := by simp [raise]
@[simp] theorem raise_lux (e : Exc) (s : State) : (raise e s).lux = s.lux := by simp [raise]
@[simp] theorem raise_temp (e : Exc) (s : State) : (raise e s).temp = s.temp := by simp [raise]
@[simp] theorem raise_press (e : Exc) (s : State) : (raise e s).press = s.press := by simp [raise]
@[simp] theorem raise_aux (e : Exc) (s : State) : (raise e s).aux = s.aux := by simp [raise]
@[simp] theorem raise_cLat (e : Exc) (s : State) : (raise e s).cLat = s.cLat := by simp [raise]
@[simp] theorem raise_adcTBuf (e : Exc) (s : State) : (raise e s).adcTBuf = s.adcTBuf := by simp [raise]
@[simp] theorem raise_adcPBuf (e : Exc) (s : State) : (raise e s).adcPBuf = s.adcPBuf := by simp [raise]
@[simp] theorem raise_bhBuf (e : Exc) (s : State) : (raise e s).bhBuf = s.bhBuf := by simp [raise]
@[simp] theorem raise_auxBuf (e : Exc) (s : State) : (raise e s).auxBuf = s.auxBuf := by simp [raise]
@[simp] theorem raise_timer (e : Exc) (s : State) : (raise e s).timer = s.timer := by simp [raise]
@[simp] theorem raise_inflight (e : Exc) (s : State) : (raise e s).inflight = s.inflight := by simp [raise]
@[simp] theorem raise_params (e : Exc) (s : State) : (raise e s).params = s.params := by simp [raise]
@[simp] theorem raise_host (e : Exc) (s : State) : (raise e s).host = s.host := by simp [raise]
@[simp] theorem raise_answers (e : Exc) (s : State) : (raise e s).answers = s.answers := by simp [raise]
@[simp] theorem raise_ticks (e : Exc) (s : State) : (raise e s).ticks = s.ticks := by simp [raise]
@[simp] theorem raise_trace (e : Exc) (s : State) : (raise e s).trace = s.trace := by simp [raise]
@[simp] theorem raise_reads (e : Exc) (s : State) : (raise e s).reads = s.reads := by simp [raise]
@[simp] theorem raise_freeCtr (e : Exc) (s : State) : (raise e s).freeCtr = (dropCalib s).freeCtr := by simp [raise]

/-- A construction of the BMP280 driver that fails leaves unspecified coefficients (R262). -/
theorem dropCalib_constructing {s : State} (h : constructingBmp s = true) :
    dropCalib s = { s with x := freeCalib s.freeCtr, freeCtr := s.freeCtr + 1 } := by
  simp [dropCalib, h]

/-- Any other exception keeps the coefficients. -/
theorem dropCalib_other {s : State} (h : constructingBmp s = false) : dropCalib s = s := by
  simp [dropCalib, h]

end Sys2Proof.Machine
end

