-- ==== Sys2Proof/Laws/Decode.lean ====
section
/-! SUPPORT. Laws of the decoder and the encoder. -/

namespace Sys2Proof

/-- What the table gives for a byte is a row of the list that the byte fits. -/
theorem findRow_mem {b : Byte} {i : Instr} {rows : List OpRow} (h : findRow b rows = some i) :
    ∃ r ∈ rows, r.fits b = true ∧ r.instr = i := by
  induction rows with
  | nil => simp [findRow] at h
  | cons r rs ih =>
    simp only [findRow] at h
    split at h
    · exact ⟨r, by simp, ‹_›, by simpa using h⟩
    · obtain ⟨r', hr', h'⟩ := ih h
      exact ⟨r', by simp [hr'], h'⟩

/-- A row read at a port is the row of its instruction. -/
theorem rowsAt_row {p : Port} {r : OpRow} (h : r ∈ rowsAt p) :
    r = ⟨r.instr, encodeByte r.instr, 0xFF⟩ ∧ r.instr.format.port = p := by
  cases p <;> simp only [rowsAt, hostRows, bhRows, bmpRows, List.mem_cons, List.not_mem_nil, or_false] at h <;>
    rcases h with rfl | rfl | rfl | rfl | rfl | rfl | rfl | rfl | rfl <;> exact ⟨rfl, rfl⟩

/-- No byte fits two rows read at one port. -/
theorem rowsAt_disjoint (p : Port) :
    (rowsAt p).Pairwise fun a b => ∀ w : Byte, a.fits w = true → b.fits w = false := by
  have hv : (rowsAt p).Pairwise fun a b => a.value ≠ b.value := by cases p <;> decide
  refine hv.imp_of_mem fun {a b} ha hb hne w hw => ?_
  have hm : ∀ w : Byte, w &&& 0xFF = w := fun w => BitVec.and_allOnes
  rw [(rowsAt_row ha).1] at hw hne
  rw [(rowsAt_row hb).1] at hne ⊢
  simp only [OpRow.fits, hm, beq_iff_eq, beq_eq_false_iff_ne] at hw ⊢
  rwa [hw]

/-- Each instruction's byte is found at its port. -/
theorem findRow_encode (i : Instr) : findRow (encodeByte i) (rowsAt i.format.port) = some i := by
  cases i <;> rfl

/-- The byte at a port is the instruction's byte exactly when the table gives the instruction. -/
theorem findRow_iff (p : Port) (b : Byte) (i : Instr) :
    findRow b (rowsAt p) = some i ↔ b = encodeByte i ∧ i.format.port = p := by
  constructor
  · intro h
    obtain ⟨r, hr, hfit, rfl⟩ := findRow_mem h
    obtain ⟨hrow, hport⟩ := rowsAt_row hr
    refine ⟨?_, hport⟩
    rw [hrow] at hfit
    have : b &&& 255#8 = b := BitVec.and_allOnes
    simpa [OpRow.fits, this] using hfit
  · rintro ⟨rfl, rfl⟩
    exact findRow_encode i

/-- The opcode latched in SEQ is decoded back to its command (R26, R91). -/
theorem decodeOp_opcodeOf {i : Instr} (h : i.isHost = true) : decodeOp (opcodeOf i) = some i := by
  cases i <;> first | rfl | (revert h; decide)

/-- A host command is never mistaken for IDLE: "opcode 0 is not a command" (R26). -/
theorem opcodeOf_ne_zero {i : Instr} (h : i.isHost = true) : opcodeOf i ≠ 0#4 := by
  cases i <;> revert h <;> decide

/-- An accepted command is a host command. -/
theorem decodeCmd_isHost {w : Word} {i : Instr} (h : decodeCmd w = some i) : i.isHost = true := by
  obtain ⟨-, hp⟩ := (findRow_iff .host (cmdByte w) i).1 h
  cases i <;> revert hp <;> decide

/-! The register addresses (R105 to R112) and the opcodes of the host commands (R92). -/

@[simp] theorem addr_calib : BmpReg.calib.addr = 0x88#8 := rfl
@[simp] theorem addr_id : BmpReg.id.addr = 0xD0#8 := rfl
@[simp] theorem addr_reset : BmpReg.reset.addr = 0xE0#8 := rfl
@[simp] theorem addr_status : BmpReg.status.addr = 0xF3#8 := rfl
@[simp] theorem addr_ctrl : BmpReg.ctrl.addr = 0xF4#8 := rfl
@[simp] theorem addr_config : BmpReg.config.addr = 0xF5#8 := rfl
@[simp] theorem addr_press : BmpReg.press.addr = 0xF7#8 := rfl
@[simp] theorem addr_temp : BmpReg.temp.addr = 0xFA#8 := rfl

theorem opcodeOf_bhInit : opcodeOf .bhInit = 1#4 := rfl
theorem opcodeOf_bhRead : opcodeOf .bhRead = 2#4 := rfl
theorem opcodeOf_bmpInit : opcodeOf .bmpInit = 4#4 := rfl
theorem opcodeOf_bmpReadT : opcodeOf .bmpReadT = 5#4 := rfl
theorem opcodeOf_bmpReadP : opcodeOf .bmpReadP = 6#4 := rfl
theorem opcodeOf_bmpReadId : opcodeOf .bmpReadId = 7#4 := rfl
theorem opcodeOf_bmpReadStatus : opcodeOf .bmpReadStatus = 8#4 := rfl
theorem opcodeOf_bmpReset : opcodeOf .bmpReset = 9#4 := rfl

end Sys2Proof
end

