-- ==== Sys2Proof/Laws/Ops.lean ====
section
/-! SUPPORT. One lemma for each shared operation that says everything it can do; later proofs cite it
instead of unfolding the operation. -/

namespace Sys2Proof.Machine

/-- Everything a bus step can do: the transport has not answered and the step is not over (R258), or it
failed and TransportFailure is raised (R79), or it brought the bytes asked for (R61), or the answer is
none that the contract allows. -/
theorem busCall_cases (t : Txn) (latch : State → State) (bind : List Byte → State → State) (s : State) :
    (Unanswered s ∧ busCall t latch bind s = .next { s with inflight := some t }) ∨
    (∃ k rest, s.answers = .err k :: rest ∧
      busCall t latch bind s =
        .next (raise (.transportFailure k) (answered t (.err k) rest (latch s)))) ∨
    (∃ bs rest, s.answers = .ok bs :: rest ∧ bs.length = t.rxLen ∧
      busCall t latch bind s = .next (bind bs (answered t (.ok bs) rest (latch s)))) ∨
    (∃ bs rest, s.answers = .ok bs :: rest ∧ bs.length ≠ t.rxLen ∧
      busCall t latch bind s = .refused .transportContract) := by
  unfold busCall
  split
  · next h => exact .inl ⟨.inl h, rfl⟩
  · next rest h => exact .inl ⟨.inr ⟨rest, h⟩, rfl⟩
  · next k rest h => exact .inr (.inl ⟨k, rest, h, rfl⟩)
  · next bs rest h =>
    split
    · next hl => exact .inr (.inr (.inl ⟨bs, rest, h, hl, rfl⟩))
    · next hl => exact .inr (.inr (.inr ⟨bs, rest, h, hl, rfl⟩))

theorem busCall_waits {t : Txn} {latch bind} {s : State} (h : Unanswered s) :
    busCall t latch bind s = .next { s with inflight := some t } := by
  rcases h with h | ⟨rest, h⟩ <;> simp [busCall, h]

theorem busCall_fails {t : Txn} {latch bind} {s : State} {k : BusErr} {rest : List Answer}
    (h : s.answers = .err k :: rest) :
    busCall t latch bind s =
      .next (raise (.transportFailure k) (answered t (.err k) rest (latch s))) := by
  simp [busCall, h]

theorem busCall_ok {t : Txn} {latch bind} {s : State} {bs : List Byte} {rest : List Answer}
    (h : s.answers = .ok bs :: rest) (hl : bs.length = t.rxLen) :
    busCall t latch bind s = .next (bind bs (answered t (.ok bs) rest (latch s))) := by
  simp [busCall, h, hl]

/-- A bus step never faults. -/
theorem busCall_ne_fault (t : Txn) (latch : State → State) (bind : List Byte → State → State)
    (s : State) (f : Fault) : busCall t latch bind s ≠ .fault f := by
  rcases busCall_cases t latch bind s with ⟨-, h⟩ | ⟨_, _, -, h⟩ | ⟨_, _, -, -, h⟩ | ⟨_, _, -, -, h⟩ <;>
    simp [h]

/-- Everything a Delay step can do: it ends, leaving its label in the trace, when enough milliseconds
have passed; until then only the timer moves (R253). -/
theorem delayStep_cases (n : Nat) (s : State) :
    (n ≤ s.timer + nextTick s ∧
      delayStep n s =
        .next (advance { s with ticks := s.ticks.tail, trace := .delay n :: s.trace })) ∨
    (s.timer + nextTick s < n ∧
      delayStep n s = .next { s with ticks := s.ticks.tail, timer := s.timer + nextTick s }) := by
  unfold delayStep
  split
  · exact .inl ⟨‹_›, rfl⟩
  · exact .inr ⟨by omega, rfl⟩

/-- The delay step of BhSend is the Delay of the latched command's settle time (R134). -/
theorem settleDelay_of {s : State} {n : Nat} (h : settleMs s.cLat = some n) :
    settleDelay s = delayStep n s := by
  simp [settleDelay, h]

/-- Every wire command has a settle time (R132). -/
theorem settleMs_byte (c : WireCmd) : ∃ n, settleMs c.byte = some n := by
  cases c <;> exact ⟨_, rfl⟩

/-- An accepted legal command word (R29). -/
theorem accept_legal {w : Word} {i : Instr} (h : decodeCmd w = some i) (s : State) :
    accept w s =
      { acknowledge s with busy := true, seq := ⟨opcodeOf i, 0⟩, timer := 0 } := by
  simp [accept, h]

/-- An accepted illegal command word (R242). -/
theorem accept_illegal {w : Word} (h : decodeCmd w = none) (s : State) :
    accept w s = raiseWith (w.extractLsb' 0 4) .illegalCommand { acknowledge s with busy := true } := by
  simp [accept, h]

/-- The fetch at a step of a command. -/
theorem fetch_at {s : State} {i : Instr} (hi : i.isHost = true) (h : s.seq.op = opcodeOf i) :
    fetch s = .run i := by
  have hne : s.seq ≠ Seq.idle := by
    intro h0
    rw [h0] at h
    exact opcodeOf_ne_zero hi h.symm
  simp [fetch, hne, h, decodeOp_opcodeOf hi]

/-- The fetch at IDLE. -/
theorem fetch_idle {s : State} (h : s.seq = Seq.idle) : fetch s = .idle := by simp [fetch, h]

/-- What the fetch gives to run is a host command, and SEQ holds its opcode. -/
theorem fetch_run {s : State} {i : Instr} (h : fetch s = .run i) :
    i.isHost = true ∧ s.seq.op = opcodeOf i ∧ s.seq ≠ Seq.idle := by
  unfold fetch at h
  split at h
  · cases h
  · next hne =>
    split at h
    · next j hj =>
      cases h
      obtain ⟨hb, hp⟩ := (findRow_iff .host _ i).1 hj
      have hop : s.seq.op = opcodeOf i := by
        have := congrArg (BitVec.extractLsb' 0 4) hb
        rw [opcodeOf, ← this]
        ext k hk
        simp [hk, show k < 8 by omega]
      refine ⟨?_, hop, hne⟩
      cases i <;> revert hp <;> decide
    · cases h

/-- Everything a step can do: the host acts, SEQ is IDLE and nothing happens, the command in SEQ takes a
step, or SEQ holds no command. -/
theorem step_cases (s : State) :
    (∃ t, turn s = .host t ∧ step s = .next t) ∨
    (∃ t, turn s = .scse t ∧ t.seq = Seq.idle ∧ step s = .next t) ∨
    (∃ t i, turn s = .scse t ∧ fetch t = .run i ∧ step s = exec i t) ∨
    (∃ t, turn s = .scse t ∧ fetch t = .illegal ∧ step s = .fault .sequencerState) := by
  unfold step
  split
  · next t h => exact .inl ⟨t, h, rfl⟩
  · next t h =>
    split
    · next hf =>
      refine .inr (.inl ⟨t, h, ?_, rfl⟩)
      by_contra hne
      simp only [fetch, hne, if_false] at hf
      split at hf <;> cases hf
    · next i hf => exact .inr (.inr (.inl ⟨t, i, h, hf, rfl⟩))
    · next hf => exact .inr (.inr (.inr ⟨t, h, hf, rfl⟩))

/-- When the SCSE moves, only the host's list has changed before it does. -/
theorem turn_scse {s t : State} (h : turn s = .scse t) : ∃ l, t = { s with host := l } := by
  unfold turn at h
  split at h
  · exact ⟨s.host, by cases h; rfl⟩
  · cases h
  · cases h
  · cases h
  · exact ⟨_, by cases h; rfl⟩
  · split at h
    · exact ⟨s.host, by cases h; rfl⟩
    · cases h

/-- Everything the host's turn can be: a write, a read, RST, or the end of a wait. -/
theorem turn_host {s t : State} (h : turn s = .host t) :
    (∃ i v rest, s.host = .write i v :: rest ∧ t = hostWrite i v { s with host := rest }) ∨
    (∃ i rest, s.host = .read i :: rest ∧ t = hostRead i { s with host := rest }) ∨
    (∃ rest, s.host = .rst :: rest ∧ t = applyReset { s with host := rest }) ∨
    (∃ rest, s.host = .await :: rest ∧ s.busy = false ∧ t = { s with host := rest }) := by
  unfold turn at h
  split at h
  · cases h
  · next i v rest hh => exact .inl ⟨i, v, rest, hh, by cases h; rfl⟩
  · next i rest hh => exact .inr (.inl ⟨i, rest, hh, by cases h; rfl⟩)
  · next rest hh => exact .inr (.inr (.inl ⟨rest, hh, by cases h; rfl⟩))
  · cases h
  · next rest hh =>
    split at h
    · cases h
    · next hb => exact .inr (.inr (.inr ⟨rest, hh, by simpa using hb, by cases h; rfl⟩))

/-- With no host action left it is the SCSE's turn. -/
theorem turn_empty {s : State} (h : s.host = []) : turn s = .scse s := by simp [turn, h]

/-- With no host action left a step at a command is that command's meaning. -/
theorem step_exec {s : State} {i : Instr} (hh : s.host = []) (hi : i.isHost = true)
    (h : s.seq.op = opcodeOf i) : step s = exec i s := by
  simp [step, turn_empty hh, fetch_at hi h]

/-- Everything RST can do to the transport's answers: drop the entry of the call that it cuts, or
nothing. -/
theorem answersAfterCut_cases (cut : Option Txn) (a : List Answer) :
    (∃ t rest, cut = some t ∧ a = .never :: rest ∧ answersAfterCut cut a = rest) ∨
    ((cut = none ∨ ∀ rest, a ≠ .never :: rest) ∧ answersAfterCut cut a = a) := by
  unfold answersAfterCut
  split
  · next t rest => exact .inl ⟨t, rest, rfl, rfl, rfl⟩
  · next h =>
    refine .inr ⟨?_, rfl⟩
    cases cut with
    | none => exact .inl rfl
    | some t => exact .inr fun rest ha => h t rest rfl ha

@[simp] theorem answersAfterCut_none (a : List Answer) : answersAfterCut none a = a := rfl
@[simp] theorem answersAfterCut_never (t : Txn) (rest : List Answer) :
    answersAfterCut (some t) (.never :: rest) = rest := rfl

/-- Everything a host write can do: nothing, accept a command, or store a configuration. -/
theorem hostWrite_cases (i : HostIdx) (v : Word) (s : State) :
    hostWrite i v s = s ∨
    (regAt i = some .cmd ∧ s.busy = false ∧ hostWrite i v s = accept v s) ∨
    (regAt i = some .bhCfg ∧ s.bhReady = false ∧ s.busy = false ∧
      hostWrite i v s = { s with bhCfg := v &&& bhCfgMask }) ∨
    (regAt i = some .bmpCfg ∧ s.bmpReady = false ∧ s.busy = false ∧
      hostWrite i v s = { s with bmpCfg := v &&& bmpCfgMask }) := by
  unfold hostWrite
  split
  · next h =>
    split
    · exact .inl rfl
    · next hb => exact .inr (.inl ⟨h, by simpa using hb, rfl⟩)
  · next h =>
    split
    · exact .inl rfl
    · next hb => exact .inr (.inr (.inl ⟨h, by simpa [bhCfgLocked] using hb⟩))
  · next h =>
    split
    · exact .inl rfl
    · next hb => exact .inr (.inr (.inr ⟨h, by simpa [bmpCfgLocked] using hb⟩))
  · exact .inl rfl
  · exact .inl rfl

/-- What no host write changes, accepted or not: coefficients, results, ready flags, what was seen on the
bus, parameters. -/
theorem hostWrite_frame (i : HostIdx) (v : Word) (s : State) :
    (hostWrite i v s).x = s.x ∧ (hostWrite i v s).lux = s.lux ∧ (hostWrite i v s).temp = s.temp ∧
      (hostWrite i v s).press = s.press ∧ (hostWrite i v s).tFine = s.tFine ∧
      (hostWrite i v s).aux = s.aux ∧ (hostWrite i v s).bhReady = s.bhReady ∧
      (hostWrite i v s).bmpReady = s.bmpReady ∧ (hostWrite i v s).cLat = s.cLat ∧
      (hostWrite i v s).trace = s.trace ∧ (hostWrite i v s).inflight = s.inflight ∧
      (hostWrite i v s).params = s.params ∧ (hostWrite i v s).errKind = s.errKind := by
  rcases hostWrite_cases i v s with h | ⟨-, -, h⟩ | ⟨-, -, -, h⟩ | ⟨-, -, -, h⟩ <;> rw [h]
  · simp
  · rcases hd : decodeCmd v with _ | j
    · rw [accept_illegal hd]
      simp [errKindAfter]
    · rw [accept_legal hd]
      simp
  · simp
  · simp

/-- The bytes of a frame of the length asked for (R118, R119). -/
@[simp] theorem frame3_three (b0 b1 b2 : Byte) : frame3 [b0, b1, b2] = ⟨b0, b1, b2⟩ := rfl
@[simp] theorem frame2_two (b0 b1 : Byte) : frame2 [b0, b1] = ⟨b0, b1⟩ := rfl
@[simp] theorem frame1_one (b : Byte) : frame1 [b] = b := rfl

/-- The device addresses of the two sensors (R62). -/
theorem isBhAddr_bhAddr (c : Word) : isBhAddr (bhAddr c) = true := by
  unfold bhAddr
  split <;> rfl

theorem isBmpAddr_bmpAddr (c : Word) : isBmpAddr (bmpAddr c) = true := by
  unfold bmpAddr
  split <;> rfl

/-- The bytes that BH_INIT and BH_READ send are among the seven of R120. -/
theorem isSentWireByte_cmdSelect {op : Bool} {res : BitVec 2} {c : WireCmd} (h : cmdSelect op res = some c) :
    isSentWireByte c.byte = true := by
  unfold cmdSelect at h
  split_ifs at h <;> cases h <;> rfl

theorem isSentWireByte_trigSelect {res : BitVec 2} {c : WireCmd} (h : trigSelect res = some c) :
    isSentWireByte c.byte = true := by
  unfold trigSelect at h
  split_ifs at h <;> cases h <;> rfl

end Sys2Proof.Machine
end

