-- ==== Sys2Proof/Laws/Datapath.lean ====
section
/-! SUPPORT. Laws of the fixed-width integer operations (R190 to R195): what narrowing does, said once. -/

namespace Sys2Proof.Machine

theorem fits_iff {n : Nat} {z : Int} :
    fits n z = true ↔ -(2 ^ (n - 1)) ≤ z ∧ z < 2 ^ (n - 1) := by
  have hp : (0 : Int) < 2 ^ (n - 1) := by positivity
  rw [fits, Bool.or_eq_true, decide_eq_true_iff, decide_eq_true_iff,
    Int.ediv_eq_iff_of_pos hp, Int.ediv_eq_iff_of_pos hp]
  constructor <;> intro h <;> omega

/-- A width's range is twice its half. -/
theorem two_pow_half {n : Nat} (hn : 0 < n) : (2 : Int) ^ n = 2 * 2 ^ (n - 1) := by
  obtain ⟨k, rfl⟩ : ∃ k, n = k + 1 := ⟨n - 1, by omega⟩
  simp [pow_succ, mul_comm]

/-- `fits_N(z)` holds "when `wrap_N(z) = z`" (R190). -/
theorem wrap_of_fits {n : Nat} (hn : 0 < n) {z : Int} (h : fits n z = true) : wrap n z = z := by
  rw [fits_iff] at h
  have h2 := two_pow_half hn
  have hp : (0 : Int) < 2 ^ (n - 1) := by positivity
  rw [wrap, Int.bmod_eq_iff]
  · push_cast
    rw [h2]
    refine ⟨by omega, by omega, by simp⟩
  · positivity

/-- A wrapped value is in the signed range (R190). -/
theorem fits_wrap {n : Nat} (hn : 0 < n) (z : Int) : fits n (wrap n z) = true := by
  have h2 := two_pow_half hn
  have hp : (0 : Int) < 2 ^ (n - 1) := by positivity
  have hpos : 0 < 2 ^ n := by positivity
  rw [fits_iff, wrap]
  have h := Int.le_bmod (x := z) (m := 2 ^ n) hpos
  have h' := Int.bmod_lt (x := z) (m := 2 ^ n) hpos
  push_cast at h h'
  rw [h2] at h h'
  omega

/-- Under `wrap` every operation delivers its wrapped result (R195). -/
theorem narrow_wrap {n : Nat} (hn : 0 < n) (z : Int) : narrow .wrap n z = some (wrap n z) := by
  unfold narrow
  split
  · next h => rw [wrap_of_fits hn h]
  · rfl

/-- An operation that does not overflow delivers the exact integer, in both modes (R191). -/
theorem narrow_of_fits (m : OvfMode) {n : Nat} {z : Int} (h : fits n z = true) :
    narrow m n z = some z := by
  simp [narrow, h]

/-- Under `fault` an operation that overflows delivers nothing (R195). -/
theorem narrow_fault_of_not_fits {n : Nat} {z : Int} (h : fits n z = false) :
    narrow .fault n z = none := by
  simp [narrow, h]

/-- An operation that does not overflow hands its exact result on (R191). -/
theorem bind_narrow {α : Type} (m : OvfMode) {n : Nat} {z : Int} (h : fits n z = true)
    (f : Int → Option α) : (narrow m n z >>= f) = f z := by
  rw [narrow_of_fits m h]
  rfl

/-- Under `fault` an operation ends the function exactly when its result does not fit, or what follows
does (R195). -/
theorem bind_narrow_fault_eq_none {α : Type} {n : Nat} {z : Int} {f : Int → Option α} :
    (narrow .fault n z >>= f) = none ↔ fits n z = false ∨ f z = none := by
  cases h : fits n z
  · simp [narrow_fault_of_not_fits h]
  · simp [bind_narrow _ h]

/-- Where no operation overflows, the steps up to `den` deliver their exact results, in both modes. -/
theorem tempsDen_exact (m : OvfMode) {tf : Int} {d : PCoefs} (h : (exactDen tf d).allFit = true) :
    tempsDen m tf d = some (exactDen tf d) := by
  simp only [TempsDen.allFit, exactDen, List.all_cons, List.all_nil, Bool.and_true, Bool.and_eq_true] at h
  obtain ⟨h1, h2, h3, h4, h5, h6, h7, h8, h9, h10, h11, h12, h13, h14⟩ := h
  unfold tempsDen subN mulN shlN addN
  rw [bind_narrow m h1, bind_narrow m h2, bind_narrow m h3, bind_narrow m h4, bind_narrow m h5,
    bind_narrow m h6, bind_narrow m h7, bind_narrow m h8, bind_narrow m h9, bind_narrow m h10,
    bind_narrow m h11, bind_narrow m h12, bind_narrow m h13, bind_narrow m h14]
  rfl

/-- … and so do the steps after it. -/
theorem tempsQuot_exact (m : OvfMode) {adcP v2 den : Int} {d : PCoefs}
    (h : (exactQuot adcP v2 den d).allFit = true) :
    tempsQuot m adcP v2 den d = some (exactQuot adcP v2 den d) := by
  simp only [TempsQuot.allFit, exactQuot, List.all_cons, List.all_nil, Bool.and_true, Bool.and_eq_true] at h
  obtain ⟨h1, h2, h3, h4, h5, h6, h7, h8, h9, h10, h11, h12⟩ := h
  unfold tempsQuot subN mulN shlN addN sdivN
  rw [bind_narrow m h1, bind_narrow m h2, bind_narrow m h3, bind_narrow m h4, bind_narrow m h5,
    bind_narrow m h6, bind_narrow m h7, bind_narrow m h8, bind_narrow m h9, bind_narrow m h10,
    bind_narrow m h11, bind_narrow m h12]
  rfl

/-- `sarN(a, k) = floor(a / 2^k)`, between bounds (R192). -/
theorem sar_le_iff {a b : Int} {k : Nat} : b ≤ sar a k ↔ b * 2 ^ k ≤ a := by
  rw [sar, Int.le_ediv_iff_mul_le (by positivity)]

theorem sar_lt_iff {a b : Int} {k : Nat} : sar a k < b ↔ a < b * 2 ^ k := by
  rw [sar, Int.ediv_lt_iff_lt_mul (by positivity)]

end Sys2Proof.Machine
end

