-- ==== Sys2Proof/Laws/Steps.lean ====
section
/-! SUPPORT. What a step of the SCSE can do, said once: the effect of a step as a case list (StepEffect),
with the lemma that a command's meaning has one of these effects; later proofs case on it instead of
unfolding the meanings. Also the run of a known step, and exceptions outside a construction. -/

namespace Sys2Proof.Machine

/-- A run of any machine whose first step is known. -/
theorem run_succ (M : Host.Core) {s t : M.State} {n : Nat} (h : M.step s = .next t) :
    M.run (n + 1) s = M.run n t := by
  rw [Host.Core.run, h]

/-- A run whose first step is known. -/
theorem run_of_step {s t : State} {n : Nat} (h : step s = .next t) :
    Host.Core.run core (n + 1) s = Host.Core.run core n t :=
  run_succ core h

theorem run_zero (s : State) : Host.Core.run core 0 s = .next s := rfl

/-- An exception in a command that is not a failing construction of the BMP280 driver (R248). -/
theorem raise_eq {e : Exc} {s : State} (h : constructingBmp s = false) :
    raise e s = raiseWith s.seq.op e s := by
  rw [raise, dropCalib_other h]

theorem not_constructing_of_op {s : State} (h : s.seq.op ≠ 0x4#4) : constructingBmp s = false := by
  have : (s.seq.op == opcodeOf .bmpInit) = false := by
    rw [beq_eq_false_iff_ne]
    exact h
  simp [constructingBmp, this]

theorem not_constructing_of_ready {s : State} (h : s.bmpReady = true) : constructingBmp s = false := by
  simp [constructingBmp, h]

/-- An exception other than a transport failure, as Safety writes it. -/
theorem raiseWith_eq_abortedWith {e : Exc} {op : BitVec 4} {s : State}
    (h : errKindAfter e s.errKind = s.errKind) : raiseWith op e s = abortedWith op e.code s := by
  simp only [raiseWith, abortedWith, h, Seq.idle, errInfoWord]

/-- Step `k` of the command `i`, as a step number. -/
theorem at_step {s : State} {i : Instr} {k : Nat} (hk : k < 8) (h : s.at i k) : s.seq.step.toNat = k := by
  rw [h.2]
  simp only [BitVec.toNat_ofNat]
  omega

theorem at_of_step {s : State} {i : Instr} {k : Nat} (hop : s.seq.op = opcodeOf i)
    (h : s.seq.step.toNat = k) : s.at i k := by
  refine ⟨hop, ?_⟩
  rw [← h]
  simp

/-- A state is at a step of one command only. -/
theorem at_instr_unique {s : State} {i j : Instr} {k l : Nat} (hi : i.isHost = true) (hj : j.isHost = true)
    (h : s.at i k) (h' : s.at j l) : i = j := by
  have he := h.1.symm.trans h'.1
  have hd := decodeOp_opcodeOf hj
  rw [← he, decodeOp_opcodeOf hi] at hd
  exact Option.some.inj hd

/-- … and at one step of it. -/
theorem at_step_unique {s : State} {i j : Instr} {k l : Nat} (hk : k < 8) (hl : l < 8)
    (h : s.at i k) (h' : s.at j l) : k = l := by
  rw [← at_step hk h, at_step hl h']

/-- A step of a command is not IDLE (R26). -/
theorem at_ne_idle {s : State} {i : Instr} {k : Nat} (hi : i.isHost = true) (h : s.at i k) :
    s.seq ≠ Seq.idle := by
  intro h0
  have h1 := h.1
  rw [h0] at h1
  exact opcodeOf_ne_zero hi h1.symm

/-- The step after one of a command. -/
theorem at_succ {s t : State} {i : Instr} {k : Nat} (h : s.at i k)
    (ht : t.seq = ⟨s.seq.op, s.seq.step + 1⟩) : t.at i (k + 1) := by
  refine ⟨by rw [ht]; exact h.1, ?_⟩
  rw [ht, h.2]
  simp [BitVec.ofNat_add]

/-- The label of the Delay that a step is (R134, R166). -/
def delayLabel (s : State) (n : Nat) : Prop :=
  ((s.at .bhInit 1 ∨ s.at .bhRead 1) ∧ settleMs s.cLat = some n) ∨ (s.at .bmpInit 1 ∧ n = 2)

/-- The wire command that a step sends (R136, R137). -/
def sendsWire (s : State) (c : WireCmd) : Prop :=
  (s.at .bhInit 0 ∧ s.bhReady = false ∧ cmdSelect (bhOneTime s.bhCfg) (bhRes s.bhCfg) = some c) ∨
  (s.at .bhRead 0 ∧ s.bhReady = true ∧ bhOneTime s.bhCfg = true ∧ trigSelect (bhRes s.bhCfg) = some c)

/-- The register and the byte that a step writes (R166, R171). -/
def storesReg (s : State) (r : BmpReg) (v : Byte) : Prop :=
  (s.at .bmpInit 2 ∧ r = .ctrl ∧ v = ctrlByte s.params s.bmpCfg) ∨
  (s.at .bmpInit 3 ∧ r = .config ∧ v = configByte s.params s.bmpCfg) ∨
  (s.at .bmpReset 0 ∧ s.bmpReady = true ∧ r = .reset ∧ v = s.params.resetWord)

/-- The read commands of the BMP280 driver. -/
def isBmpRead (i : Instr) : Prop :=
  i = .bmpReadT ∨ i = .bmpReadP ∨ i = .bmpReadId ∨ i = .bmpReadStatus ∨ i = .bmpReset

/-- Everything a step of a command can do. -/
inductive StepEffect (s : State) : State → Prop
  | wait (t : Txn) : stepTxn s = some t → Unanswered s →
      StepEffect s { s with inflight := some t }
  | fail (t : Txn) (k : BusErr) (rest : List Answer) (c : Byte) : stepTxn s = some t →
      s.answers = .err k :: rest →
      StepEffect s (raise (.transportFailure k) (answered t (.err k) rest { s with cLat := c }))
  | wire (c : WireCmd) (rest : List Answer) : sendsWire s c → s.answers = .ok [] :: rest →
      StepEffect s (advance (answered (.write (bhAddr s.bhCfg) [c.byte]) (.ok []) rest
        { s with cLat := c.byte }))
  | light (bs : List Byte) (rest : List Answer) : s.at .bhRead 2 → s.answers = .ok bs :: rest →
      bs.length = 2 →
      StepEffect s (advance { answered (.read (bhAddr s.bhCfg) 2) (.ok bs) rest s with
        bhBuf := frame2 bs })
  | calib (bs : List Byte) (rest : List Answer) : s.at .bmpInit 0 → s.bmpReady = false →
      s.answers = .ok bs :: rest → bs.length = 24 →
      StepEffect s (advance { answered (memRead s .calib 24) (.ok bs) rest s with x := calParse bs })
  | adcT (bs : List Byte) (rest : List Answer) : (s.at .bmpReadT 0 ∨ s.at .bmpReadP 0) →
      s.bmpReady = true → s.answers = .ok bs :: rest → bs.length = 3 →
      StepEffect s (advance { answered (memRead s .temp 3) (.ok bs) rest s with adcTBuf := frame3 bs })
  | adcP (bs : List Byte) (rest : List Answer) : s.at .bmpReadP 1 → s.answers = .ok bs :: rest →
      bs.length = 3 →
      StepEffect s (advance { answered (memRead s .press 3) (.ok bs) rest s with adcPBuf := frame3 bs })
  | auxByte (r : BmpReg) (bs : List Byte) (rest : List Answer) :
      (s.at .bmpReadId 0 ∧ r = .id ∨ s.at .bmpReadStatus 0 ∧ r = .status) → s.bmpReady = true →
      s.answers = .ok bs :: rest → bs.length = 1 →
      StepEffect s (advance { answered (memRead s r 1) (.ok bs) rest s with auxBuf := frame1 bs })
  | store (r : BmpReg) (v : Byte) (rest : List Answer) : storesReg s r v → s.answers = .ok [] :: rest →
      StepEffect s (advance (answered (memWrite s r v) (.ok []) rest s))
  | delayOver (n : Nat) : delayLabel s n → n ≤ s.timer + nextTick s →
      StepEffect s (advance { s with ticks := s.ticks.tail, trace := .delay n :: s.trace })
  | delayOn (n : Nat) : delayLabel s n → s.timer + nextTick s < n →
      StepEffect s { s with ticks := s.ticks.tail, timer := s.timer + nextTick s }
  | reject (e : Exc) : errKindAfter e s.errKind = s.errKind →
      (s.at .bhInit 0 ∧ s.bhReady = true ∧ e = .alreadyInit ∨
        s.at .bhInit 0 ∧ s.bhReady = false ∧ bhRes s.bhCfg = 0b10#2 ∧ e = .illegalConfig ∨
        s.at .bhRead 0 ∧ s.bhReady = false ∧ e = .notReady ∨
        s.at .bmpInit 0 ∧ s.bmpReady = true ∧ e = .alreadyInit ∨
        (∃ i, isBmpRead i ∧ s.at i 0) ∧ s.bmpReady = false ∧ e = .notReady ∨
        (s.at .bmpReadT 1 ∨ s.at .bmpReadP 2) ∧ s.params.ovfMode = .fault ∧ e = .arithOverflow) →
      StepEffect s (raise e s)
  | skip : s.at .bhRead 0 → s.bhReady = true → bhOneTime s.bhCfg = false → StepEffect s (jumpTo 2 s)
  | bhReady : s.at .bhInit 2 → StepEffect s (finish { s with bhReady := true })
  | lux : s.at .bhRead 3 → StepEffect s (finish { s with lux := (bhDecode s.bhBuf).zeroExtend 32 })
  | bmpReady : s.at .bmpInit 4 → StepEffect s (finish { s with bmpReady := true })
  | temp (tf t : Int) : s.at .bmpReadT 1 → compTOf s.params.ovfMode s.adcTBuf s.x = some (tf, t) →
      StepEffect s (finish { s with tFine := BitVec.ofInt 32 tf, temp := BitVec.ofInt 32 t })
  | press (tf t : Int) (p : Word) : s.at .bmpReadP 2 →
      compTOf s.params.ovfMode s.adcTBuf s.x = some (tf, t) →
      compPOf s.params.ovfMode s.adcPBuf tf s.x = some p →
      StepEffect s (finish { s with tFine := BitVec.ofInt 32 tf, press := p })
  | idByte : s.at .bmpReadId 1 → StepEffect s (finish { s with aux := auxOfId s.auxBuf })
  | statusByte : s.at .bmpReadStatus 1 →
      StepEffect s (finish { s with aux := auxOfStatus s.params s.auxBuf })
  | resetSent : s.at .bmpReset 1 → StepEffect s (finish s)

/-- Under `wrap` no operation of the datapath fails (R195), so neither function does. -/
theorem tempsT_wrap_isSome (a b c d : Int) : ∃ r, tempsT .wrap a b c d = some r := by
  simp [tempsT, shlN, subN, mulN, addN, narrow_wrap]

theorem compT_wrap_isSome (a b c d : Int) : ∃ r, compT .wrap a b c d = some r := by
  obtain ⟨r, h⟩ := tempsT_wrap_isSome a b c d
  exact ⟨_, by rw [compT, h]; rfl⟩

theorem tempsDen_wrap_isSome (t : Int) (d : PCoefs) : ∃ r, tempsDen .wrap t d = some r := by
  simp [tempsDen, shlN, subN, mulN, addN, narrow_wrap]

theorem tempsQuot_wrap_isSome (a v e : Int) (d : PCoefs) : ∃ r, tempsQuot .wrap a v e d = some r := by
  simp [tempsQuot, shlN, subN, mulN, addN, sdivN, narrow_wrap]

theorem compP_wrap_isSome (a t : Int) (d : PCoefs) : ∃ p, compP .wrap a t d = some p := by
  obtain ⟨r, h⟩ := tempsDen_wrap_isSome t d
  rw [compP, h]
  by_cases h0 : r.den = 0
  · exact ⟨0, by simp [h0]⟩
  · obtain ⟨q, hq⟩ := tempsQuot_wrap_isSome a r.v2 r.den d
    exact ⟨narrowPressure q.r, by simp [h0, hq]⟩

theorem compTOf_wrap_ne_none (f : Frame3) (x : Calib) : compTOf .wrap f x ≠ none := by
  obtain ⟨r, h⟩ := compT_wrap_isSome (adcUnpack f).toNat x.digT1.toNat x.digT2.toInt x.digT3.toInt
  simp [compTOf, h]

theorem compPOf_wrap_ne_none (f : Frame3) (t : Int) (x : Calib) : compPOf .wrap f t x ≠ none := by
  obtain ⟨p, h⟩ := compP_wrap_isSome (adcUnpack f).toNat t x.pCoefs
  simp [compPOf, h]

/-- A bus step's effects, from those of the bus call. -/
theorem busCall_effect {t : Txn} {latch : State → State} {bind : List Byte → State → State} {s s' : State}
    {c : Byte} (hl : latch s = { s with cLat := c }) (ht : stepTxn s = some t)
    (hok : ∀ bs rest, s.answers = .ok bs :: rest → bs.length = t.rxLen →
      StepEffect s (bind bs (answered t (.ok bs) rest (latch s))))
    (h : busCall t latch bind s = .next s') : StepEffect s s' := by
  rcases busCall_cases t latch bind s with ⟨ha, hc⟩ | ⟨k, rest, ha, hc⟩ | ⟨bs, rest, ha, hlen, hc⟩ |
    ⟨bs, rest, -, -, hc⟩ <;> rw [hc] at h <;> cases h
  · exact .wait t ht ha
  · rw [hl]
    exact .fail t k rest c ht ha
  · exact hok bs rest ha hlen

theorem delayStep_effect {n : Nat} {s s' : State} (hl : delayLabel s n) (h : delayStep n s = .next s') :
    StepEffect s s' := by
  rcases delayStep_cases n s with ⟨hd, hc⟩ | ⟨hd, hc⟩ <;> rw [hc] at h <;> cases h
  · exact .delayOver n hl hd
  · exact .delayOn n hl hd

theorem settleDelay_effect {s s' : State} (hl : s.at .bhInit 1 ∨ s.at .bhRead 1)
    (h : settleDelay s = .next s') : StepEffect s s' := by
  unfold settleDelay at h
  split at h
  · next n hn => exact delayStep_effect (.inl ⟨hl, hn⟩) h
  · cases h

theorem bhSend_effect {c : WireCmd} {s s' : State} (hw : sendsWire s c)
    (ht : stepTxn s = some (.write (bhAddr s.bhCfg) [c.byte])) (h : bhSend c s = .next s') :
    StepEffect s s' := by
  refine busCall_effect (c := c.byte) rfl ht (fun bs rest ha hlen => ?_) h
  obtain rfl : bs = [] := by simpa [Txn.rxLen] using hlen
  exact .wire c rest hw ha

theorem storeReg_effect {r : BmpReg} {v : Byte} {s s' : State} (hw : storesReg s r v)
    (ht : stepTxn s = some (.write (bmpAddr s.bmpCfg) [r.addr, v])) (h : storeReg r v s = .next s') :
    StepEffect s s' := by
  refine busCall_effect (c := s.cLat) rfl ht (fun bs rest ha hlen => ?_) h
  obtain rfl : bs = [] := by simpa [memWrite, Txn.rxLen] using hlen
  exact .store r v rest hw ha

theorem bhInit_effect {s s' : State} (hop : s.seq.op = opcodeOf .bhInit)
    (h : execBhInit s = .next s') : StepEffect s s' := by
  unfold execBhInit at h
  split at h
  · next hk =>
    have hat := at_of_step hop hk
    split at h
    · next hr =>
      cases h
      exact .reject _ rfl (.inl ⟨hat, hr, rfl⟩)
    · next hr =>
      split at h
      · next hc =>
        cases h
        refine .reject _ rfl (.inr (.inl ⟨hat, by simpa using hr, ?_, rfl⟩))
        by_contra hres
        revert hc
        simp only [cmdSelect, hres, if_false]
        split_ifs <;> simp
      · next c hc =>
        refine bhSend_effect (.inl ⟨hat, by simpa using hr, hc⟩) ?_ h
        simp [stepTxn, fetch_at (i := .bhInit) rfl hop, hk, hr, hc]
  · next hk => exact settleDelay_effect (.inl (at_of_step hop hk)) h
  · next hk =>
    cases h
    exact .bhReady (at_of_step hop hk)
  · cases h

theorem bhRead_effect {s s' : State} (hop : s.seq.op = opcodeOf .bhRead)
    (h : execBhRead s = .next s') : StepEffect s s' := by
  unfold execBhRead at h
  split at h
  · next hk =>
    have hat := at_of_step hop hk
    split at h
    · next hr =>
      cases h
      exact .reject _ rfl (.inr (.inr (.inl ⟨hat, by simpa using hr, rfl⟩)))
    · next hr =>
      have hr : s.bhReady = true := by simpa using hr
      split at h
      · next ho =>
        cases h
        exact .skip hat hr (by simpa using ho)
      · next ho =>
        have ho : bhOneTime s.bhCfg = true := by simpa using ho
        split at h
        · cases h
        · next c hc =>
          refine bhSend_effect (.inr ⟨hat, hr, ho, hc⟩) ?_ h
          simp [stepTxn, fetch_at (i := .bhRead) rfl hop, hk, hr, ho, hc]
  · next hk => exact settleDelay_effect (.inr (at_of_step hop hk)) h
  · next hk =>
    refine busCall_effect (c := s.cLat) rfl ?_ (fun bs rest ha hlen => ?_) h
    · simp [stepTxn, fetch_at (i := .bhRead) rfl hop, hk]
    · exact .light bs rest (at_of_step hop hk) ha hlen
  · next hk =>
    cases h
    exact .lux (at_of_step hop hk)
  · cases h

theorem bmpInit_effect {s s' : State} (hop : s.seq.op = opcodeOf .bmpInit)
    (h : execBmpInit s = .next s') : StepEffect s s' := by
  unfold execBmpInit at h
  split at h
  · next hk =>
    have hat := at_of_step hop hk
    split at h
    · next hr =>
      cases h
      exact .reject _ rfl (.inr (.inr (.inr (.inl ⟨hat, hr, rfl⟩))))
    · next hr =>
      refine busCall_effect (c := s.cLat) rfl ?_ (fun bs rest ha hlen => ?_) h
      · simp [stepTxn, fetch_at (i := .bmpInit) rfl hop, hk, hr, memRead, BmpReg.addr, BmpReg.instr, encodeByte, calLen]
      · exact .calib bs rest hat (by simpa using hr) ha hlen
  · next hk => exact delayStep_effect (.inr ⟨at_of_step hop hk, rfl⟩) h
  · next hk =>
    refine storeReg_effect (.inl ⟨at_of_step hop hk, rfl, rfl⟩) ?_ h
    simp [stepTxn, fetch_at (i := .bmpInit) rfl hop, hk, BmpReg.addr, BmpReg.instr, encodeByte]
  · next hk =>
    refine storeReg_effect (.inr (.inl ⟨at_of_step hop hk, rfl, rfl⟩)) ?_ h
    simp [stepTxn, fetch_at (i := .bmpInit) rfl hop, hk, BmpReg.addr, BmpReg.instr, encodeByte]
  · next hk =>
    cases h
    exact .bmpReady (at_of_step hop hk)
  · cases h

theorem reject_notReady {s : State} {i : Instr} (hi : isBmpRead i) (hat : s.at i 0)
    (hr : (!s.bmpReady) = true) : StepEffect s (raise .notReady s) :=
  .reject _ rfl (.inr (.inr (.inr (.inr (.inl ⟨⟨i, hi, hat⟩, by simpa using hr, rfl⟩)))))

theorem reject_overflow {s : State} (hat : s.at .bmpReadT 1 ∨ s.at .bmpReadP 2)
    (h : s.params.ovfMode ≠ .wrap) : StepEffect s (raise .arithOverflow s) := by
  refine .reject _ rfl (.inr (.inr (.inr (.inr (.inr ⟨hat, ?_, rfl⟩)))))
  cases hm : s.params.ovfMode
  · exact absurd hm h
  · rfl

theorem bmpReadT_effect {s s' : State} (hop : s.seq.op = opcodeOf .bmpReadT)
    (h : execBmpReadT s = .next s') : StepEffect s s' := by
  unfold execBmpReadT at h
  split at h
  · next hk =>
    have hat := at_of_step hop hk
    split at h
    · next hr =>
      cases h
      exact reject_notReady (.inl rfl) hat hr
    · next hr =>
      have hr : s.bmpReady = true := by simpa using hr
      refine busCall_effect (c := s.cLat) rfl ?_ (fun bs rest ha hlen => ?_) h
      · simp [stepTxn, fetch_at (i := .bmpReadT) rfl hop, hk, hr, memRead, BmpReg.addr, BmpReg.instr, encodeByte]
      · exact .adcT bs rest (.inl hat) hr ha hlen
  · next hk =>
    have hat := at_of_step hop hk
    obtain rfl : compensateT s = s' := Host.Outcome.next.inj h
    unfold compensateT
    split
    · next hc => exact reject_overflow (.inl hat) fun hm => compTOf_wrap_ne_none _ _ (hm ▸ hc)
    · next tf t hc => exact .temp tf t hat hc
  · cases h

theorem bmpReadP_effect {s s' : State} (hop : s.seq.op = opcodeOf .bmpReadP)
    (h : execBmpReadP s = .next s') : StepEffect s s' := by
  unfold execBmpReadP at h
  split at h
  · next hk =>
    have hat := at_of_step hop hk
    split at h
    · next hr =>
      cases h
      exact reject_notReady (.inr (.inl rfl)) hat hr
    · next hr =>
      have hr : s.bmpReady = true := by simpa using hr
      refine busCall_effect (c := s.cLat) rfl ?_ (fun bs rest ha hlen => ?_) h
      · simp [stepTxn, fetch_at (i := .bmpReadP) rfl hop, hk, hr, memRead, BmpReg.addr, BmpReg.instr, encodeByte]
      · exact .adcT bs rest (.inr hat) hr ha hlen
  · next hk =>
    refine busCall_effect (c := s.cLat) rfl ?_ (fun bs rest ha hlen => ?_) h
    · simp [stepTxn, fetch_at (i := .bmpReadP) rfl hop, hk, memRead, BmpReg.addr, BmpReg.instr, encodeByte]
    · exact .adcP bs rest (at_of_step hop hk) ha hlen
  · next hk =>
    have hat := at_of_step hop hk
    obtain rfl : compensateP s = s' := Host.Outcome.next.inj h
    unfold compensateP
    split
    · next hc => exact reject_overflow (.inr hat) fun hm => compTOf_wrap_ne_none _ _ (hm ▸ hc)
    · next tf t hc =>
      split
      · next hp => exact reject_overflow (.inr hat) fun hm => compPOf_wrap_ne_none _ _ _ (hm ▸ hp)
      · next p hp => exact .press tf t p hat hc hp
  · cases h

theorem bmpReadId_effect {s s' : State} (hop : s.seq.op = opcodeOf .bmpReadId)
    (h : execBmpReadId s = .next s') : StepEffect s s' := by
  unfold execBmpReadId at h
  split at h
  · next hk =>
    have hat := at_of_step hop hk
    split at h
    · next hr =>
      cases h
      exact reject_notReady (.inr (.inr (.inl rfl))) hat hr
    · next hr =>
      have hr : s.bmpReady = true := by simpa using hr
      refine busCall_effect (c := s.cLat) rfl ?_ (fun bs rest ha hlen => ?_) h
      · simp [stepTxn, fetch_at (i := .bmpReadId) rfl hop, hk, hr, memRead, BmpReg.addr, BmpReg.instr, encodeByte]
      · exact .auxByte .id bs rest (.inl ⟨hat, rfl⟩) hr ha hlen
  · next hk =>
    cases h
    exact .idByte (at_of_step hop hk)
  · cases h

theorem bmpReadStatus_effect {s s' : State} (hop : s.seq.op = opcodeOf .bmpReadStatus)
    (h : execBmpReadStatus s = .next s') : StepEffect s s' := by
  unfold execBmpReadStatus at h
  split at h
  · next hk =>
    have hat := at_of_step hop hk
    split at h
    · next hr =>
      cases h
      exact reject_notReady (.inr (.inr (.inr (.inl rfl)))) hat hr
    · next hr =>
      have hr : s.bmpReady = true := by simpa using hr
      refine busCall_effect (c := s.cLat) rfl ?_ (fun bs rest ha hlen => ?_) h
      · simp [stepTxn, fetch_at (i := .bmpReadStatus) rfl hop, hk, hr, memRead, BmpReg.addr, BmpReg.instr, encodeByte]
      · exact .auxByte .status bs rest (.inr ⟨hat, rfl⟩) hr ha hlen
  · next hk =>
    cases h
    exact .statusByte (at_of_step hop hk)
  · cases h

theorem bmpReset_effect {s s' : State} (hop : s.seq.op = opcodeOf .bmpReset)
    (h : execBmpReset s = .next s') : StepEffect s s' := by
  unfold execBmpReset at h
  split at h
  · next hk =>
    have hat := at_of_step hop hk
    split at h
    · next hr =>
      cases h
      exact reject_notReady (.inr (.inr (.inr (.inr rfl)))) hat hr
    · next hr =>
      have hr : s.bmpReady = true := by simpa using hr
      refine storeReg_effect (.inr (.inr ⟨hat, hr, rfl, rfl⟩)) ?_ h
      simp [stepTxn, fetch_at (i := .bmpReset) rfl hop, hk, hr, BmpReg.addr, BmpReg.instr, encodeByte]
  · next hk =>
    cases h
    exact .resetSent (at_of_step hop hk)
  · cases h

/-- The meaning of the command in SEQ has one of the effects of a step. -/
theorem exec_effect {i : Instr} {s s' : State} (hi : i.isHost = true) (hop : s.seq.op = opcodeOf i)
    (h : exec i s = .next s') : StepEffect s s' := by
  cases i with
  | bhInit => exact bhInit_effect hop h
  | bhRead => exact bhRead_effect hop h
  | bmpInit => exact bmpInit_effect hop h
  | bmpReadT => exact bmpReadT_effect hop h
  | bmpReadP => exact bmpReadP_effect hop h
  | bmpReadId => exact bmpReadId_effect hop h
  | bmpReadStatus => exact bmpReadStatus_effect hop h
  | bmpReset => exact bmpReset_effect hop h
  | _ => exact absurd hi (by decide)

/-- A step that answers a next state: the host acted, nothing happened at IDLE, or the command in SEQ had
one of its effects, only the host's list having changed before. -/
theorem step_next {s s' : State} (h : step s = .next s') :
    turn s = .host s' ∨
    (∃ l, s' = { s with host := l } ∧ s.seq = Seq.idle) ∨
    (∃ l, s.seq ≠ Seq.idle ∧ s.seq.op ≠ 0#4 ∧ StepEffect { s with host := l } s') := by
  rcases step_cases s with ⟨t, ht, hs⟩ | ⟨t, ht, hid, hs⟩ | ⟨t, i, ht, hf, hs⟩ | ⟨t, -, -, hs⟩ <;> rw [hs] at h
  · cases h
    exact .inl ht
  · cases h
    obtain ⟨l, rfl⟩ := turn_scse ht
    exact .inr (.inl ⟨l, rfl, hid⟩)
  · obtain ⟨l, rfl⟩ := turn_scse ht
    obtain ⟨hi, hop, hne⟩ := fetch_run hf
    exact .inr (.inr ⟨l, hne, fun h0 => opcodeOf_ne_zero hi (hop.symm.trans h0), exec_effect hi hop h⟩)
  · cases h

end Sys2Proof.Machine
end

