-- ==== Sys2Proof/Laws/PerInstr.lean ====
section
/-! SUPPORT. Per instruction: the family RoundTrip, each instruction's bytes are read back as it at the
port of its format, with whatever follows handed back (R90, R124). -/

namespace Sys2Proof.Laws.RoundTrip

def Statement (i : Instr) : Prop :=
  i.wf = true ∧ ∀ rest, decode i.format.port (encode i ++ rest) = .ok (i, rest)

theorem bhInit : Statement .bhInit := ⟨rfl, fun _ => rfl⟩
theorem bhRead : Statement .bhRead := ⟨rfl, fun _ => rfl⟩
theorem bmpInit : Statement .bmpInit := ⟨rfl, fun _ => rfl⟩
theorem bmpReadT : Statement .bmpReadT := ⟨rfl, fun _ => rfl⟩
theorem bmpReadP : Statement .bmpReadP := ⟨rfl, fun _ => rfl⟩
theorem bmpReadId : Statement .bmpReadId := ⟨rfl, fun _ => rfl⟩
theorem bmpReadStatus : Statement .bmpReadStatus := ⟨rfl, fun _ => rfl⟩
theorem bmpReset : Statement .bmpReset := ⟨rfl, fun _ => rfl⟩
theorem bhPowerDown : Statement .bhPowerDown := ⟨rfl, fun _ => rfl⟩
theorem bhPowerUp : Statement .bhPowerUp := ⟨rfl, fun _ => rfl⟩
theorem bhReset : Statement .bhReset := ⟨rfl, fun _ => rfl⟩
theorem bhContHigh : Statement .bhContHigh := ⟨rfl, fun _ => rfl⟩
theorem bhContUhigh : Statement .bhContUhigh := ⟨rfl, fun _ => rfl⟩
theorem bhContLow : Statement .bhContLow := ⟨rfl, fun _ => rfl⟩
theorem bhOtHigh : Statement .bhOtHigh := ⟨rfl, fun _ => rfl⟩
theorem bhOtUhigh : Statement .bhOtUhigh := ⟨rfl, fun _ => rfl⟩
theorem bhOtLow : Statement .bhOtLow := ⟨rfl, fun _ => rfl⟩
theorem bmpRegCalib : Statement .bmpRegCalib := ⟨rfl, fun _ => rfl⟩
theorem bmpRegId : Statement .bmpRegId := ⟨rfl, fun _ => rfl⟩
theorem bmpRegReset : Statement .bmpRegReset := ⟨rfl, fun _ => rfl⟩
theorem bmpRegStatus : Statement .bmpRegStatus := ⟨rfl, fun _ => rfl⟩
theorem bmpRegCtrl : Statement .bmpRegCtrl := ⟨rfl, fun _ => rfl⟩
theorem bmpRegConfig : Statement .bmpRegConfig := ⟨rfl, fun _ => rfl⟩
theorem bmpRegPress : Statement .bmpRegPress := ⟨rfl, fun _ => rfl⟩
theorem bmpRegTemp : Statement .bmpRegTemp := ⟨rfl, fun _ => rfl⟩

end Sys2Proof.Laws.RoundTrip
end

