-- ==== Sys2Proof/Certificates/Slice0/Obligations.lean ====
section
/-! DEFINITION. The statements for the provers, from the numbered rules of spec/. Next states are written
out as State updates, so that each says its frame: a field not named is unchanged. -/

open Sys2Proof Sys2Proof.Machine

/-! ### The step, decoding and encoding -/

/-- R11, R26: when it is the SCSE's turn, a step is the meaning of the command that the opcode in SEQ
decodes to. -/
def Obligations.StepRunsTheCommandInSeq : Prop :=
  ∀ (s t : State) (i : Instr),
    ((s.host = [] ∧ t = s) ∨
      (∃ rest, s.host = .pass :: rest ∧ t = { s with host := rest }) ∨
      (∃ rest, s.host = .await :: rest ∧ s.busy = true ∧ t = s)) →
    decode .host [t.seq.op.zeroExtend 8] = .ok (i, []) →
    i.wf = true ∧ step s = exec i t

/-- R11, R257: when it is the host's turn, a step is the host's action, and with nothing to do it changes
nothing. The way the host's actions are listed is the model's (log 5). -/
def Obligations.StepTakesTheHostAction : Prop :=
  ∀ (s : State) (rest : List HostAct),
    (∀ i v, s.host = .write i v :: rest → step s = .next (hostWrite i v { s with host := rest })) ∧
    (∀ i, s.host = .read i :: rest → step s = .next (hostRead i { s with host := rest })) ∧
    (s.host = .rst :: rest → step s = .next (applyReset { s with host := rest })) ∧
    (s.host = .await :: rest → s.busy = false → step s = .next { s with host := rest }) ∧
    (s.host = [] → s.seq = Seq.idle → step s = .next s)

/-- R92, R94, R104: a command's bus step is the wire row that it carries: running the command's step is
running the row. -/
def Obligations.StepRunsTheCarriedRow : Prop :=
  ∀ (s t : State) (j : Instr), turn s = .scse t → carriedRow t = some j →
    step s = exec j t ∧ j.isHost = false

/-- R91 to R112: words written out bit by bit from the spec's encodings. -/
def Obligations.SpecWordsDecode : Prop :=
  decode .host [0b00000001] = .ok (.bhInit, []) ∧
  decode .host [0b00000110] = .ok (.bmpReadP, []) ∧
  decode .host [0b00001001] = .ok (.bmpReset, []) ∧
  decode .bh1750 [0b00000001] = .ok (.bhPowerUp, []) ∧
  decode .bh1750 [0b00000111] = .ok (.bhReset, []) ∧
  decode .bh1750 [0b00010011] = .ok (.bhContLow, []) ∧
  decode .bh1750 [0b00100001] = .ok (.bhOtUhigh, []) ∧
  decode .bmp280 [0b10001000] = .ok (.bmpRegCalib, []) ∧
  decode .bmp280 [0b11110100, 0b00100111] = .ok (.bmpRegCtrl, [0b00100111]) ∧
  decode .bmp280 [0b11111010] = .ok (.bmpRegTemp, []) ∧
  decode .host [0b00010010] = .error .zeroField ∧
  decode .host [0b00000011] = .error .unassignedOpcode ∧
  decode .bh1750 [0b00000010] = .error .unknownWireByte ∧
  decode .bmp280 [0b11110110] = .error .unknownRegister

/-- R90 to R112: decoding and encoding agree, in both directions, at every port and for all bytes: what
decodes to an instruction is exactly that instruction's encoding, at its format's port, followed by
anything. -/
def Obligations.DecodeAndEncodeAgree : Prop :=
  ∀ (p : Port) (bytes : List Byte) (i : Instr) (rest : List Byte),
    decode p bytes = .ok (i, rest) ↔
      (i.wf = true ∧ i.format.port = p ∧ bytes = encode i ++ rest)

/-! ### The host's registers -/

/-- R93, R242: exactly the words 0x00, 0x03, 0x0A to 0x0F and those with bits 7:4 not zero are illegal,
and an accepted write of one raises IllegalCommand in that step, with `ERR_OP = w[3:0]`, no transaction
and no other change. -/
def Obligations.IllegalCommandRaised : Prop :=
  (∀ w : Word, decodeCmd w = none ↔
    (w.extractLsb' 4 4 ≠ 0#4 ∨ w.extractLsb' 0 4 = 0x0#4 ∨ w.extractLsb' 0 4 = 0x3#4 ∨
      0xA#4 ≤ w.extractLsb' 0 4)) ∧
  ∀ (s : State) (w : Word) (rest : List HostAct),
    s.host = .write 0x00 w :: rest → s.busy = false → decodeCmd w = none →
    step s = .next (abortedWith (w.extractLsb' 0 4) 2 { s with host := rest })

/-- R29, R92: an accepted write of a legal command word clears DONE, ERR and ERRINFO, sets BUSY and puts
SEQ at step s0 of the command; bits 31:8 of the word do not matter. -/
def Obligations.AcceptedCommandWrite : Prop :=
  (∀ (s : State) (w : Word) (rest : List HostAct) (i : Instr),
    s.host = .write 0x00 w :: rest → s.busy = false → decode .host [w.extractLsb' 0 8] = .ok (i, []) →
    step s = .next { s with
      host := rest, done := false, err := false, errInfo := 0, busy := true,
      seq := ⟨w.extractLsb' 0 4, 0⟩, timer := 0 }) ∧
  ∀ (w v : Word) (s : State), w.extractLsb' 0 8 = v.extractLsb' 0 8 →
    hostWrite 0x00 w s = hostWrite 0x00 v s

/-- R260 (with R29 and R281): the model follows R260's second reading, that a CMD write while `BUSY = 1`
passes as a no-op, as in the hardware, which drops it (log 8); writes to read-only and reserved indices
change nothing. -/
def Obligations.DroppedWritesChangeNothing : Prop :=
  ∀ (s : State) (i : HostIdx) (v : Word) (rest : List HostAct),
    s.host = .write i v :: rest →
    ((i = 0x00#6 ∧ s.busy = true) ∨ (i = 0x04#6 ∧ (s.bhReady = true ∨ s.busy = true)) ∨
      (i = 0x05#6 ∧ (s.bmpReady = true ∨ s.busy = true)) ∨
      (i ≠ 0x00#6 ∧ i ≠ 0x04#6 ∧ i ≠ 0x05#6)) →
    step s = .next { s with host := rest }

/-- R28, R41: the register map, with reserved indices reading as zero, and reads without a side effect on
any register. ERRKIND and DIG are named where the spec gives their value. -/
def Obligations.RegisterMap : Prop :=
  ∀ s : State,
    hostView s 0x00 = 0 ∧ hostView s 0x01 = statusWord s ∧ hostView s 0x02 = s.errInfo ∧
    (errCode s.errInfo = 1#3 → hostView s 0x03 = s.errKind) ∧
    hostView s 0x04 = s.bhCfg ∧ hostView s 0x05 = s.bmpCfg ∧ hostView s 0x08 = s.lux ∧
    hostView s 0x09 = s.temp ∧ hostView s 0x0A = s.press ∧ hostView s 0x0B = s.tFine ∧
    hostView s 0x0C = s.aux ∧
    (s.bmpReady = true → ∀ i : Fin 12, hostView s (BitVec.ofNat 6 (16 + i.val)) = digWord s.x i) ∧
    (∀ i : HostIdx, i = 0x06#6 ∨ i = 0x07#6 ∨ (0x0D#6 ≤ i ∧ i ≤ 0x0F#6) ∨ 0x1C#6 ≤ i →
      hostView s i = 0) ∧
    ∀ i rest, s.host = .read i :: rest →
      step s = .next { s with
        host := rest, reads := (i, hostView { s with host := rest } i) :: s.reads,
        freeCtr := s.freeCtr + 1 }

/-- R30: the bits of STATUS, its reset value, and that it is read-only. -/
def Obligations.StatusLayout : Prop :=
  (∀ s : State,
    (hostView s 0x01).getLsbD 0 = s.busy ∧ (hostView s 0x01).getLsbD 1 = s.done ∧
    (hostView s 0x01).getLsbD 2 = s.err ∧ (hostView s 0x01).getLsbD 3 = s.bhReady ∧
    (hostView s 0x01).getLsbD 4 = s.bmpReady ∧
    ∀ n, 5 ≤ n → (hostView s 0x01).getLsbD n = false) ∧
  hostView State.reset 0x01 = 0x00000000 ∧ ∀ (s : State) (v : Word), hostWrite 0x01 v s = s

/-- R40: DIG`i` is `x[i]`, zero-extended for `i = 0` and `i = 3`, sign-extended otherwise, while
`BMP_READY = 1` (nothing is claimed of the unspecified read while it is 0); it is read-only. -/
def Obligations.CoefficientWindow : Prop :=
  ∀ (s : State) (i : Fin 12),
    (s.bmpReady = true →
      (i = 0 ∨ i = 3 → (hostView s (BitVec.ofNat 6 (16 + i.val))).toNat = (s.x.get i).toNat) ∧
      (i ≠ 0 → i ≠ 3 → (hostView s (BitVec.ofNat 6 (16 + i.val))).toInt = (s.x.get i).toInt)) ∧
    ∀ v : Word, hostWrite (BitVec.ofNat 6 (16 + i.val)) v s = s

/-- R42: the configuration registers take their low bits while unlocked, nothing while locked, and only
reset clears the ready flags that lock them. -/
def Obligations.ConfigurationLock : Prop :=
  (∀ (s : State) (v : Word) (rest : List HostAct), s.host = .write 0x04 v :: rest →
    step s = .next (if s.bhReady = true ∨ s.busy = true then { s with host := rest }
      else { s with host := rest, bhCfg := v &&& 0x0000000F })) ∧
  (∀ (s : State) (v : Word) (rest : List HostAct), s.host = .write 0x05 v :: rest →
    step s = .next (if s.bmpReady = true ∨ s.busy = true then { s with host := rest }
      else { s with host := rest, bmpCfg := v &&& 0x00001FFF })) ∧
  ∀ s s' : State, step s = .next s' → ¬ resetNext s →
    (s.bhReady = true → s'.bhReady = true) ∧ (s.bmpReady = true → s'.bmpReady = true)

/-- R45: the values that the spec gives for reset (those it leaves unspecified are the model's, log 1,
and no claim is made of them). -/
def Obligations.ResetState : Prop :=
  State.reset.seq = ⟨0, 0⟩ ∧ State.reset.busy = false ∧ State.reset.done = false ∧
  State.reset.err = false ∧ State.reset.bhReady = false ∧ State.reset.bmpReady = false ∧
  hostView State.reset 0x01 = 0x00000000 ∧ State.reset.errInfo = 0x00000000 ∧
  State.reset.bhCfg = 0x00000000 ∧ bhCfgLocked State.reset = false ∧
  State.reset.bmpCfg = 0x00000000 ∧ bmpCfgLocked State.reset = false

/-- R270, R271: RST at any time, also in the middle of a command, puts the state to the values of R45 in
one step, without an exception and with nothing sent: the trace gains the mark of the reset only. The
transport's answers to later calls stay; the entry of a call that hung and is cut goes (the model's
choice, log 16). -/
def Obligations.ResetAtAnyTime : Prop :=
  ∀ (s : State) (rest : List HostAct), s.host = .rst :: rest →
    ∃ t, step s = .next t ∧ t.seq = ⟨0, 0⟩ ∧ t.busy = false ∧ t.done = false ∧ t.err = false ∧
      t.bhReady = false ∧ t.bmpReady = false ∧ t.errInfo = 0 ∧ t.bhCfg = 0 ∧ t.bmpCfg = 0 ∧
      bhCfgLocked t = false ∧ bmpCfgLocked t = false ∧ t.inflight = none ∧
      t.host = rest ∧ t.params = s.params ∧ t.ticks = s.ticks ∧ t.reads = s.reads ∧
      t.trace = .reset s.inflight :: s.trace ∧
      ((s.inflight = none ∨ ∀ later, s.answers ≠ .never :: later) → t.answers = s.answers) ∧
      ∀ cut later, s.inflight = some cut → s.answers = .never :: later → t.answers = later

/-! ### The BH1750 -/

/-- R130, R131: the command byte that BH_INIT uploads and the one that BH_READ sends in one-time mode, for
all configurations; neither is defined for `RES = 0b10`. -/
def Obligations.CommandSelection : Prop :=
  (∀ res : BitVec 2, res ≠ 0b10#2 →
    (cmdSelect false res).map WireCmd.byte = some (0x10#8 ||| res.zeroExtend 8) ∧
    (cmdSelect true res).map WireCmd.byte = some 0x00#8 ∧
    (trigSelect res).map WireCmd.byte = some (0x20#8 ||| res.zeroExtend 8)) ∧
  (∀ op, cmdSelect op 0b10#2 = none) ∧ trigSelect 0b10#2 = none ∧
  cmdSelect false 0b00#2 = some .contHigh ∧ cmdSelect false 0b01#2 = some .contUhigh ∧
  cmdSelect false 0b11#2 = some .contLow ∧ trigSelect 0b00#2 = some .otHigh ∧
  trigSelect 0b01#2 = some .otUhigh ∧ trigSelect 0b11#2 = some .otLow

/-- R132: the settle delays, for the nine wire commands and no other byte. -/
def Obligations.SettleDelays : Prop :=
  ∀ (c : Byte) (n : Nat), settleMs c = some n ↔
    (c, n) ∈ [(0x00#8, 1), (0x01#8, 1), (0x07#8, 1), (0x10#8, 180), (0x11#8, 180), (0x13#8, 24),
      (0x20#8, 24), (0x21#8, 24), (0x23#8, 24)]

/-- R66, R119, R133: the light value is big-endian, `b0 * 256 + b1`, on all inputs. -/
def Obligations.LightValueIsBigEndian : Prop :=
  (∀ b0 b1 : Byte, (bhDecode ⟨b0, b1⟩).toNat = b0.toNat * 256 + b1.toNat) ∧
  bhDecode ⟨0x01, 0x00⟩ = 256 ∧ bhDecode ⟨0x00, 0x01⟩ = 1

/-- R33, R62: the fields of BH_CFG as bits of the register, and BhAddr as ADDR_SEL selects it. R134, R95 to
R103: the write step of BhSend of each of the nine wire commands (BH_POWER_DOWN, BH_POWER_UP, BH_RESET,
BH_CONT_HIGH, BH_CONT_UHIGH, BH_CONT_LOW, BH_OT_HIGH, BH_OT_UHIGH, BH_OT_LOW) completes when the
transport answers `ok`: one byte to BhAddr, `c_lat` holds it, nothing else changes, and the delay step
that follows waits that command's settle time. -/
def Obligations.WireCommandsComplete : Prop :=
  (∀ cfg : Word,
    (cfg.getLsbD 0 = false → bhAddr cfg = 0b0100011) ∧ (cfg.getLsbD 0 = true → bhAddr cfg = 0b1011100) ∧
    (bhRes cfg).toNat = cfg.toNat / 2 % 4 ∧ (bhOneTime cfg = true ↔ cfg.toNat / 8 % 2 = 1)) ∧
  ∀ (i : Instr) (c : Byte) (n : Nat) (s : State) (rest : List Answer),
    (i, c, n) ∈ [(Instr.bhPowerDown, 0x00#8, 1), (.bhPowerUp, 0x01#8, 1), (.bhReset, 0x07#8, 1),
      (.bhContHigh, 0x10#8, 180), (.bhContUhigh, 0x11#8, 180), (.bhContLow, 0x13#8, 24),
      (.bhOtHigh, 0x20#8, 24), (.bhOtUhigh, 0x21#8, 24), (.bhOtLow, 0x23#8, 24)] →
    s.answers = .ok [] :: rest →
    ∃ t, exec i s = .next t ∧
      t = { okStep (.write (bhAddr s.bhCfg) [c]) [] rest s with cLat := c } ∧
      settleDelay t = delayStep n t

/-- R134, R138, R241: when the transport answers `err(k)` to a wire command sent by BH_INIT or BH_READ,
TransportFailure(k) is raised, no delay follows and nothing is sent again. -/
def Obligations.WireCommandsFail : Prop :=
  ∀ (i : Instr) (c : Byte) (s : State) (k : BusErr) (rest : List Answer),
    (i, c) ∈ [(Instr.bhPowerDown, 0x00#8), (.bhPowerUp, 0x01#8), (.bhReset, 0x07#8),
      (.bhContHigh, 0x10#8), (.bhContUhigh, 0x11#8), (.bhContLow, 0x13#8),
      (.bhOtHigh, 0x20#8), (.bhOtUhigh, 0x21#8), (.bhOtLow, 0x23#8)] →
    (s.seq.op = 0x1#4 ∨ s.seq.op = 0x2#4) → s.answers = .err k :: rest →
    exec i s = .next
      { errStep s.seq.op (.write (bhAddr s.bhCfg) [c]) k rest s with cLat := c }

/-- R135, R136: BH_INIT, step by step, with its exceptions. The delay step ends when the milliseconds
passed reach the settle time. -/
def Obligations.BhInitSteps : Prop :=
  ∀ (s : State),
    (s.at .bhInit 0 → s.bhReady = true → exec .bhInit s = .next (abortedWith 1 4 s)) ∧
    (s.at .bhInit 0 → s.bhReady = false → bhRes s.bhCfg = 0b10#2 →
      exec .bhInit s = .next (abortedWith 1 5 s)) ∧
    (∀ c rest, s.at .bhInit 0 → s.bhReady = false →
      cmdSelect (bhOneTime s.bhCfg) (bhRes s.bhCfg) = some c → s.answers = .ok [] :: rest →
      exec .bhInit s = .next
        { okStep (.write (bhAddr s.bhCfg) [c.byte]) [] rest s with cLat := c.byte }) ∧
    (∀ c k rest, s.at .bhInit 0 → s.bhReady = false →
      cmdSelect (bhOneTime s.bhCfg) (bhRes s.bhCfg) = some c → s.answers = .err k :: rest →
      exec .bhInit s = .next
        { errStep 1 (.write (bhAddr s.bhCfg) [c.byte]) k rest s with cLat := c.byte }) ∧
    (∀ n, s.at .bhInit 1 → settleMs s.cLat = some n → n ≤ s.timer + s.ticks.headD 1 →
      exec .bhInit s = .next { s with
        ticks := s.ticks.tail, trace := .delay n :: s.trace, seq := ⟨1, 2⟩, timer := 0 }) ∧
    (s.at .bhInit 2 → exec .bhInit s = .next { doneStep s with bhReady := true })

/-- R136: the whole of BH_INIT, from its step s0, with a transport that takes the write and a timer that
lets the delay pass: one write to BhAddr, the settle delay of that command, BH_READY set. -/
def Obligations.BhInitRunsToReady : Prop :=
  ∀ (s : State) (c : WireCmd) (n d : Nat) (rest : List Answer) (ts : List Nat),
    s.host = [] → s.at .bhInit 0 → s.bhReady = false →
    cmdSelect (bhOneTime s.bhCfg) (bhRes s.bhCfg) = some c → settleMs c.byte = some n →
    s.answers = .ok [] :: rest → s.ticks = d :: ts → n ≤ d →
    Host.Core.run core 3 s = .next { doneStep s with
      bhReady := true, cLat := c.byte, answers := rest, ticks := ts, inflight := none, timer := 0,
      trace := .delay n :: .txn (.write (bhAddr s.bhCfg) [c.byte]) (.ok []) :: s.trace }

/-- R135, R137: BH_READ, step by step, with its exceptions. LUX is written by the last step only. -/
def Obligations.BhReadSteps : Prop :=
  ∀ (s : State),
    (s.at .bhRead 0 → s.bhReady = false → exec .bhRead s = .next (abortedWith 2 3 s)) ∧
    (s.at .bhRead 0 → s.bhReady = true → bhOneTime s.bhCfg = false →
      exec .bhRead s = .next { s with seq := ⟨2, 2⟩, timer := 0 }) ∧
    (∀ c rest, s.at .bhRead 0 → s.bhReady = true → bhOneTime s.bhCfg = true →
      trigSelect (bhRes s.bhCfg) = some c → s.answers = .ok [] :: rest →
      exec .bhRead s = .next
        { okStep (.write (bhAddr s.bhCfg) [c.byte]) [] rest s with cLat := c.byte }) ∧
    (∀ c k rest, s.at .bhRead 0 → s.bhReady = true → bhOneTime s.bhCfg = true →
      trigSelect (bhRes s.bhCfg) = some c → s.answers = .err k :: rest →
      exec .bhRead s = .next
        { errStep 2 (.write (bhAddr s.bhCfg) [c.byte]) k rest s with cLat := c.byte }) ∧
    (∀ n, s.at .bhRead 1 → settleMs s.cLat = some n → n ≤ s.timer + s.ticks.headD 1 →
      exec .bhRead s = .next { s with
        ticks := s.ticks.tail, trace := .delay n :: s.trace, seq := ⟨2, 2⟩, timer := 0 }) ∧
    (∀ b0 b1 rest, s.at .bhRead 2 → s.answers = .ok [b0, b1] :: rest →
      exec .bhRead s = .next
        { okStep (.read (bhAddr s.bhCfg) 2) [b0, b1] rest s with bhBuf := ⟨b0, b1⟩ }) ∧
    (∀ k rest, s.at .bhRead 2 → s.answers = .err k :: rest →
      exec .bhRead s = .next (errStep 2 (.read (bhAddr s.bhCfg) 2) k rest s)) ∧
    (s.at .bhRead 3 → exec .bhRead s = .next
      { doneStep s with lux := BitVec.ofNat 32 (s.bhBuf.b0.toNat * 256 + s.bhBuf.b1.toNat) })

/-- R137: the whole of BH_READ, from its step s0, in continuous mode (one transaction, no delay) and in
one-time mode (trigger, settle delay, read). -/
def Obligations.BhReadRunsToLux : Prop :=
  ∀ (s : State) (b0 b1 : Byte), s.host = [] → s.at .bhRead 0 → s.bhReady = true →
    (∀ rest, bhOneTime s.bhCfg = false → s.answers = .ok [b0, b1] :: rest →
      Host.Core.run core 3 s = .next { doneStep s with
        lux := BitVec.ofNat 32 (b0.toNat * 256 + b1.toNat), bhBuf := ⟨b0, b1⟩, answers := rest,
        inflight := none, timer := 0,
        trace := .txn (.read (bhAddr s.bhCfg) 2) (.ok [b0, b1]) :: s.trace }) ∧
    (∀ c n d rest ts, bhOneTime s.bhCfg = true → trigSelect (bhRes s.bhCfg) = some c →
      settleMs c.byte = some n → s.answers = .ok [] :: .ok [b0, b1] :: rest →
      s.ticks = d :: ts → n ≤ d →
      Host.Core.run core 4 s = .next { doneStep s with
        lux := BitVec.ofNat 32 (b0.toNat * 256 + b1.toNat), bhBuf := ⟨b0, b1⟩, cLat := c.byte,
        answers := rest, ticks := ts, inflight := none, timer := 0,
        trace := .txn (.read (bhAddr s.bhCfg) 2) (.ok [b0, b1]) :: .delay n ::
          .txn (.write (bhAddr s.bhCfg) [c.byte]) (.ok []) :: s.trace })

/-! ### The BMP280: layouts and packing -/

/-- R65, R161: coefficient `i` is `k[2i] + 256 * k[2i+1]`, for every block; CompT and CompP read `dig_T1`
and `dig_P1` as that unsigned number `u i` and the ten others as its signed reading `v i`; SCDOC's example decodes `dig_T1 = 1`, all others 0; the second
example's signed fields. -/
def Obligations.CalibrationParse : Prop :=
  (∀ (k : List Byte) (i : Fin 12), k.length = 24 →
    ((calParse k).get i).toNat = (k.getD (2 * i.val) 0).toNat + 256 * (k.getD (2 * i.val + 1) 0).toNat) ∧
  (∀ k : List Byte, k.length = 24 →
    let u : Nat → Nat := fun i => (k.getD (2 * i) 0).toNat + 256 * (k.getD (2 * i + 1) 0).toNat
    let v : Nat → Int := fun i => if u i < 32768 then u i else (u i : Int) - 65536
    (calParse k).digT1.toNat = u 0 ∧ (calParse k).digT2.toInt = v 1 ∧ (calParse k).digT3.toInt = v 2 ∧
    (calParse k).pCoefs = ⟨u 3, v 4, v 5, v 6, v 7, v 8, v 9, v 10, v 11⟩) ∧
  calParse (0x01 :: List.replicate 23 0x00) = { Calib.zero with digT1 := 1 } ∧
  ∀ k : List Byte, k.length = 24 → k.getD 2 0 = 0x43 → k.getD 3 0 = 0x67 → k.getD 4 0 = 0x18 →
    k.getD 5 0 = 0xFC → (calParse k).digT2.toInt = 26435 ∧ (calParse k).digT3.toInt = -1000

/-- R67, R118, R162: the ADC code is `b0 ++ b1 ++ b2[7:4]`; the low nibble of the third byte has no
effect. -/
def Obligations.AdcUnpack : Prop :=
  (∀ b0 b1 b2 : Byte, adcUnpack ⟨b0, b1, b2⟩ = b0 ++ b1 ++ b2.extractLsb' 4 4 ∧
    (adcUnpack ⟨b0, b1, b2⟩).toNat = b0.toNat * 4096 + b1.toNat * 16 + b2.toNat / 16) ∧
  (adcUnpack ⟨0x7E, 0xED, 0x00⟩).toNat = 519888 ∧ (adcUnpack ⟨0x65, 0x5A, 0xCF⟩).toNat = 415148

/-- R113, R114, R163, R164: the control byte, whose fields do not overlap, with the decided mode bits; the
config byte as the source has it, "both terms shifted by 5": bits 7:5 the bitwise or of the two codes,
bits 4:0 zero. -/
def Obligations.ControlAndConfigBytes : Prop :=
  (∀ (p : Params) (t q : BitVec 3),
    (ctrlPack p t q).extractLsb' 5 3 = t ∧ (ctrlPack p t q).extractLsb' 2 3 = q ∧
    (ctrlPack p t q).extractLsb' 0 2 = p.normalModeBits) ∧
  ctrlPack Params.decided 0 0 = 0x03 ∧ ctrlPack Params.decided 1 1 = 0x27 ∧
  ctrlPack Params.decided 7 7 = 0xFF ∧ ctrlPack Params.decided 2 5 = 0x57 ∧
  (∀ (p : Params) (sb f : BitVec 3),
    (configPack p sb f).toNat = ((sb.toNat <<< 5) ||| (f.toNat <<< p.filterShift)) % 256 ∧
    (p.filterShift = 5 → configPack p sb f = (sb ||| f) ++ 0#5)) ∧
  configPack Params.decided 0 0 = 0x00 ∧ configPack Params.decided 5 0 = 0xA0 ∧
  configPack Params.decided 0 4 = 0x80 ∧ configPack Params.decided 4 0 = 0x80 ∧
  configPack Params.decided 4 4 = 0x80 ∧ configPack Params.decided 5 2 = 0xE0 ∧
  configPack Params.decided 2 2 = 0x40

/-! ### The BMP280: register accesses and commands -/

/-- R34, R62: the fields of BMP_CFG as bits of the register, and BmpAddr as ADDR_SEL selects it. R63, R104
to R112: each of the eight register accesses (BMP_REG_CALIB, BMP_REG_ID, BMP_REG_RESET,
BMP_REG_STATUS, BMP_REG_CTRL, BMP_REG_CONFIG, BMP_REG_PRESS, BMP_REG_TEMP) completes when the transport
answers `ok` with the bytes asked for: one transaction to BmpAddr, its bytes bound, nothing else
changed. -/
def Obligations.RegisterAccessesComplete : Prop :=
  (∀ cfg : Word,
    (cfg.getLsbD 0 = false → bmpAddr cfg = 0x76) ∧ (cfg.getLsbD 0 = true → bmpAddr cfg = 0x77) ∧
    (osrsT cfg).toNat = cfg.toNat / 2 % 8 ∧ (osrsP cfg).toNat = cfg.toNat / 16 % 8 ∧
    (filterCode cfg).toNat = cfg.toNat / 128 % 8 ∧ (tSb cfg).toNat = cfg.toNat / 1024 % 8) ∧
  ∀ (s : State) (rest : List Answer),
    (∀ k, s.answers = .ok k :: rest → k.length = 24 →
      exec .bmpRegCalib s = .next
        { okStep (.writeRead (bmpAddr s.bmpCfg) [0x88] 24) k rest s with x := calParse k }) ∧
    (∀ b, s.answers = .ok [b] :: rest →
      exec .bmpRegId s = .next
        { okStep (.writeRead (bmpAddr s.bmpCfg) [0xD0] 1) [b] rest s with auxBuf := b }) ∧
    (∀ b, s.answers = .ok [b] :: rest →
      exec .bmpRegStatus s = .next
        { okStep (.writeRead (bmpAddr s.bmpCfg) [0xF3] 1) [b] rest s with auxBuf := b }) ∧
    (∀ b0 b1 b2, s.answers = .ok [b0, b1, b2] :: rest →
      exec .bmpRegPress s = .next
        { okStep (.writeRead (bmpAddr s.bmpCfg) [0xF7] 3) [b0, b1, b2] rest s with
          adcPBuf := ⟨b0, b1, b2⟩ }) ∧
    (∀ b0 b1 b2, s.answers = .ok [b0, b1, b2] :: rest →
      exec .bmpRegTemp s = .next
        { okStep (.writeRead (bmpAddr s.bmpCfg) [0xFA] 3) [b0, b1, b2] rest s with
          adcTBuf := ⟨b0, b1, b2⟩ }) ∧
    (s.answers = .ok [] :: rest →
      exec .bmpRegReset s = .next
        (okStep (.write (bmpAddr s.bmpCfg) [0xE0, s.params.resetWord]) [] rest s)) ∧
    (s.answers = .ok [] :: rest →
      exec .bmpRegCtrl s = .next
        (okStep (.write (bmpAddr s.bmpCfg)
          [0xF4, ctrlPack s.params (osrsT s.bmpCfg) (osrsP s.bmpCfg)]) [] rest s)) ∧
    (s.answers = .ok [] :: rest →
      exec .bmpRegConfig s = .next
        (okStep (.write (bmpAddr s.bmpCfg)
          [0xF5, configPack s.params (tSb s.bmpCfg) (filterCode s.bmpCfg)]) [] rest s))

/-- R160, R166, R262: BMP_INIT, step by step, with its exceptions. After a failed construction nothing
is claimed of `x` (and of the counter its free values are drawn by, log 10). That AlreadyInit leaves
`x` as it was is the model's reading (log 9, DEDUCED, unsafe), by R244 and vector V99, against the letter
of R262. -/
def Obligations.BmpInitSteps : Prop :=
  ∀ (s : State),
    (s.at .bmpInit 0 → s.bmpReady = true → exec .bmpInit s = .next (abortedWith 4 4 s)) ∧
    (∀ k rest, s.at .bmpInit 0 → s.bmpReady = false → s.answers = .ok k :: rest → k.length = 24 →
      exec .bmpInit s = .next
        { okStep (.writeRead (bmpAddr s.bmpCfg) [0x88] 24) k rest s with x := calParse k }) ∧
    (s.at .bmpInit 1 → 2 ≤ s.timer + s.ticks.headD 1 →
      exec .bmpInit s = .next { s with
        ticks := s.ticks.tail, trace := .delay 2 :: s.trace, seq := ⟨4, 2⟩, timer := 0 }) ∧
    (∀ rest, s.at .bmpInit 2 → s.answers = .ok [] :: rest →
      exec .bmpInit s = .next
        (okStep (.write (bmpAddr s.bmpCfg) [0xF4, ctrlByte s.params s.bmpCfg]) [] rest s)) ∧
    (∀ rest, s.at .bmpInit 3 → s.answers = .ok [] :: rest →
      exec .bmpInit s = .next
        (okStep (.write (bmpAddr s.bmpCfg) [0xF5, configByte s.params s.bmpCfg]) [] rest s)) ∧
    (s.at .bmpInit 4 → exec .bmpInit s = .next { doneStep s with bmpReady := true }) ∧
    (∀ t k rest, (s.at .bmpInit 0 ∨ s.at .bmpInit 2 ∨ s.at .bmpInit 3) → s.bmpReady = false →
      stepTxn s = some t → s.answers = .err k :: rest →
      ∃ x' n', exec .bmpInit s = .next { errStep 4 t k rest s with x := x', freeCtr := n' })

/-- R75, R166, R173: the whole of BMP_INIT, from its step s0: the calibration read, the 2 ms delay, the
control write and the config write, in this order, then BMP_READY with the coefficients loaded. -/
def Obligations.BmpInitRunsToReady : Prop :=
  ∀ (s : State) (k : List Byte) (d : Nat) (rest : List Answer) (ts : List Nat),
    s.host = [] → s.at .bmpInit 0 → s.bmpReady = false → k.length = 24 →
    s.answers = .ok k :: .ok [] :: .ok [] :: rest → s.ticks = d :: ts → 2 ≤ d →
    Host.Core.run core 5 s = .next { doneStep s with
      bmpReady := true, x := calParse k, answers := rest, ticks := ts, inflight := none, timer := 0,
      trace := initEvents s k ++ s.trace }

/-- R160, R167: BMP_READ_T, step by step, with its exceptions, and R167's worked example. -/
def Obligations.BmpReadTSteps : Prop :=
  ∀ (s : State),
    (s.at .bmpReadT 0 → s.bmpReady = false → exec .bmpReadT s = .next (abortedWith 5 3 s)) ∧
    (∀ b0 b1 b2 rest, s.at .bmpReadT 0 → s.bmpReady = true → s.answers = .ok [b0, b1, b2] :: rest →
      exec .bmpReadT s = .next
        { okStep (.writeRead (bmpAddr s.bmpCfg) [0xFA] 3) [b0, b1, b2] rest s with
          adcTBuf := ⟨b0, b1, b2⟩ }) ∧
    (∀ k rest, s.at .bmpReadT 0 → s.bmpReady = true → s.answers = .err k :: rest →
      exec .bmpReadT s = .next (errStep 5 (.writeRead (bmpAddr s.bmpCfg) [0xFA] 3) k rest s)) ∧
    (∀ tf T, s.at .bmpReadT 1 →
      compT s.params.ovfMode (adcUnpack s.adcTBuf).toNat s.x.digT1.toNat s.x.digT2.toInt
        s.x.digT3.toInt = some (tf, T) →
      exec .bmpReadT s = .next
        { doneStep s with tFine := BitVec.ofInt 32 tf, temp := BitVec.ofInt 32 T }) ∧
    (s.at .bmpReadT 1 →
      compT s.params.ovfMode (adcUnpack s.adcTBuf).toNat s.x.digT1.toNat s.x.digT2.toInt
        s.x.digT3.toInt = none →
      exec .bmpReadT s = .next (abortedWith 5 6 s)) ∧
    (s.at .bmpReadT 1 → s.adcTBuf = ⟨0x7E, 0xED, 0x00⟩ → s.x.digT1.toNat = 27504 →
      s.x.digT2.toInt = 26435 → s.x.digT3.toInt = -1000 →
      exec .bmpReadT s = .next { doneStep s with tFine := 128422, temp := 2508 })

/-- R167: the whole of BMP_READ_T with OVF_MODE wrap: it always completes, whatever the coefficients and
the bytes received, with T_FINE and TEMP the two results of CompT as 32-bit signed numbers. -/
def Obligations.BmpReadTRunsToTemp : Prop :=
  ∀ (s : State) (b0 b1 b2 : Byte) (rest : List Answer),
    s.host = [] → s.at .bmpReadT 0 → s.bmpReady = true → s.params.ovfMode = .wrap →
    s.answers = .ok [b0, b1, b2] :: rest →
    ∃ tf T : Int,
      compT .wrap (b0.toNat * 4096 + b1.toNat * 16 + b2.toNat / 16 : Nat) s.x.digT1.toNat
        s.x.digT2.toInt s.x.digT3.toInt = some (tf, T) ∧
      Host.Core.run core 2 s = .next { doneStep s with
        tFine := BitVec.ofInt 32 tf, temp := BitVec.ofInt 32 T, adcTBuf := ⟨b0, b1, b2⟩,
        answers := rest, inflight := none, timer := 0,
        trace := .txn (.writeRead (bmpAddr s.bmpCfg) [0xFA] 3) (.ok [b0, b1, b2]) :: s.trace } ∧
      (BitVec.ofInt 32 tf).toInt = tf ∧ (BitVec.ofInt 32 T).toInt = T

/-- R160, R168: BMP_READ_P, step by step, with its exceptions, and R168's worked example. TEMP is not
written. -/
def Obligations.BmpReadPSteps : Prop :=
  ∀ (s : State),
    (s.at .bmpReadP 0 → s.bmpReady = false → exec .bmpReadP s = .next (abortedWith 6 3 s)) ∧
    (∀ b0 b1 b2 rest, s.at .bmpReadP 0 → s.bmpReady = true → s.answers = .ok [b0, b1, b2] :: rest →
      exec .bmpReadP s = .next
        { okStep (.writeRead (bmpAddr s.bmpCfg) [0xFA] 3) [b0, b1, b2] rest s with
          adcTBuf := ⟨b0, b1, b2⟩ }) ∧
    (∀ k rest, s.at .bmpReadP 0 → s.bmpReady = true → s.answers = .err k :: rest →
      exec .bmpReadP s = .next (errStep 6 (.writeRead (bmpAddr s.bmpCfg) [0xFA] 3) k rest s)) ∧
    (∀ b0 b1 b2 rest, s.at .bmpReadP 1 → s.answers = .ok [b0, b1, b2] :: rest →
      exec .bmpReadP s = .next
        { okStep (.writeRead (bmpAddr s.bmpCfg) [0xF7] 3) [b0, b1, b2] rest s with
          adcPBuf := ⟨b0, b1, b2⟩ }) ∧
    (∀ k rest, s.at .bmpReadP 1 → s.answers = .err k :: rest →
      exec .bmpReadP s = .next (errStep 6 (.writeRead (bmpAddr s.bmpCfg) [0xF7] 3) k rest s)) ∧
    (∀ tf T P, s.at .bmpReadP 2 →
      compT s.params.ovfMode (adcUnpack s.adcTBuf).toNat s.x.digT1.toNat s.x.digT2.toInt
        s.x.digT3.toInt = some (tf, T) →
      compP s.params.ovfMode (adcUnpack s.adcPBuf).toNat tf s.x.pCoefs = some P →
      exec .bmpReadP s = .next { doneStep s with tFine := BitVec.ofInt 32 tf, press := P }) ∧
    (s.at .bmpReadP 2 →
      (compT s.params.ovfMode (adcUnpack s.adcTBuf).toNat s.x.digT1.toNat s.x.digT2.toInt
          s.x.digT3.toInt = none ∨
        ∃ tf T, compT s.params.ovfMode (adcUnpack s.adcTBuf).toNat s.x.digT1.toNat s.x.digT2.toInt
            s.x.digT3.toInt = some (tf, T) ∧
          compP s.params.ovfMode (adcUnpack s.adcPBuf).toNat tf s.x.pCoefs = none) →
      exec .bmpReadP s = .next (abortedWith 6 6 s)) ∧
    (s.at .bmpReadP 2 → s.adcTBuf = ⟨0x7E, 0xED, 0x00⟩ → s.adcPBuf = ⟨0x65, 0x5A, 0xC0⟩ →
      s.x.digT1.toNat = 27504 → s.x.digT2.toInt = 26435 → s.x.digT3.toInt = -1000 →
      s.x.pCoefs = refP →
      exec .bmpReadP s = .next { doneStep s with tFine := 128422, press := 25767233 })

/-- R75, R168, R276: the whole of BMP_READ_P with OVF_MODE wrap: the temperature read, then the pressure
read, then T_FINE and PRESS; it always completes. -/
def Obligations.BmpReadPRunsToPress : Prop :=
  ∀ (s : State) (a0 a1 a2 b0 b1 b2 : Byte) (rest : List Answer),
    s.host = [] → s.at .bmpReadP 0 → s.bmpReady = true → s.params.ovfMode = .wrap →
    s.answers = .ok [a0, a1, a2] :: .ok [b0, b1, b2] :: rest →
    ∃ (tf T : Int) (P : Word),
      compT .wrap (a0.toNat * 4096 + a1.toNat * 16 + a2.toNat / 16 : Nat) s.x.digT1.toNat
        s.x.digT2.toInt s.x.digT3.toInt = some (tf, T) ∧
      compP .wrap (b0.toNat * 4096 + b1.toNat * 16 + b2.toNat / 16 : Nat) tf s.x.pCoefs = some P ∧
      Host.Core.run core 3 s = .next { doneStep s with
        tFine := BitVec.ofInt 32 tf, press := P, adcTBuf := ⟨a0, a1, a2⟩, adcPBuf := ⟨b0, b1, b2⟩,
        answers := rest, inflight := none, timer := 0,
        trace := .txn (.writeRead (bmpAddr s.bmpCfg) [0xF7] 3) (.ok [b0, b1, b2]) ::
          .txn (.writeRead (bmpAddr s.bmpCfg) [0xFA] 3) (.ok [a0, a1, a2]) :: s.trace }

/-- R160, R169, R170, R171: the steps of the auxiliary commands BMP_READ_ID, BMP_READ_STATUS and
BMP_RESET, with their exceptions. -/
def Obligations.AuxiliarySteps : Prop :=
  ∀ (s : State),
    (∀ i op, (i, op) ∈ [(Instr.bmpReadId, 7#4), (.bmpReadStatus, 8#4), (.bmpReset, 9#4)] →
      s.at i 0 → s.bmpReady = false → exec i s = .next (abortedWith op 3 s)) ∧
    (∀ i op t k rest, (i, op) ∈ [(Instr.bmpReadId, 7#4), (.bmpReadStatus, 8#4), (.bmpReset, 9#4)] →
      s.at i 0 → s.bmpReady = true → stepTxn s = some t → s.answers = .err k :: rest →
      exec i s = .next (errStep op t k rest s)) ∧
    (∀ b rest, s.at .bmpReadId 0 → s.bmpReady = true → s.answers = .ok [b] :: rest →
      exec .bmpReadId s = .next
        { okStep (.writeRead (bmpAddr s.bmpCfg) [0xD0] 1) [b] rest s with auxBuf := b }) ∧
    (s.at .bmpReadId 1 → exec .bmpReadId s = .next
      { doneStep s with aux := BitVec.ofNat 32 s.auxBuf.toNat }) ∧
    (∀ b rest, s.at .bmpReadStatus 0 → s.bmpReady = true → s.answers = .ok [b] :: rest →
      exec .bmpReadStatus s = .next
        { okStep (.writeRead (bmpAddr s.bmpCfg) [0xF3] 1) [b] rest s with auxBuf := b }) ∧
    (s.at .bmpReadStatus 1 → exec .bmpReadStatus s = .next
      { doneStep s with
        aux := BitVec.ofNat 32 (s.auxBuf.toNat +
          (if s.auxBuf.getLsbD s.params.stMeasuringBit.val then 256 else 0) +
          (if s.auxBuf.getLsbD s.params.stImUpdateBit.val then 512 else 0)) }) ∧
    (∀ rest, s.at .bmpReset 0 → s.bmpReady = true → s.answers = .ok [] :: rest →
      exec .bmpReset s = .next
        (okStep (.write (bmpAddr s.bmpCfg) [0xE0, s.params.resetWord]) [] rest s)) ∧
    (s.at .bmpReset 1 → exec .bmpReset s = .next (doneStep s))

/-- R160, R169, R170, R171: the whole of BMP_READ_ID, BMP_READ_STATUS and BMP_RESET from step s0: one
transaction each, AUX the only register written by the reads, and by BMP_RESET none. -/
def Obligations.AuxiliaryCommandsRun : Prop :=
  ∀ (s : State), s.host = [] → s.bmpReady = true →
    (∀ b rest, s.at .bmpReadId 0 → s.answers = .ok [b] :: rest →
      Host.Core.run core 2 s = .next { doneStep s with
        aux := auxOfId b, auxBuf := b, answers := rest, inflight := none, timer := 0,
        trace := .txn (.writeRead (bmpAddr s.bmpCfg) [0xD0] 1) (.ok [b]) :: s.trace }) ∧
    (∀ b rest, s.at .bmpReadStatus 0 → s.answers = .ok [b] :: rest →
      Host.Core.run core 2 s = .next { doneStep s with
        aux := auxOfStatus s.params b, auxBuf := b, answers := rest, inflight := none, timer := 0,
        trace := .txn (.writeRead (bmpAddr s.bmpCfg) [0xF3] 1) (.ok [b]) :: s.trace }) ∧
    (∀ rest, s.at .bmpReset 0 → s.answers = .ok [] :: rest →
      Host.Core.run core 2 s = .next { doneStep s with
        answers := rest, inflight := none, timer := 0,
        trace := .txn (.write (bmpAddr s.bmpCfg) [0xE0, s.params.resetWord]) (.ok []) :: s.trace })

/-! ### The compensation datapath -/

/-- R190: `wrap_N(z)` is the unique integer of the signed N-bit range congruent to `z` modulo 2^N, and
`fits_N(z)` holds when it is `z`, for N = 32 and N = 64. -/
def Obligations.WrapIsTheResidue : Prop :=
  ∀ n, n = 32 ∨ n = 64 → ∀ z : Int,
    (-(2 ^ (n - 1)) ≤ wrap n z ∧ wrap n z < 2 ^ (n - 1)) ∧ ((2 : Int) ^ n ∣ z - wrap n z) ∧
    (∀ w : Int, -(2 ^ (n - 1)) ≤ w → w < 2 ^ (n - 1) → (2 : Int) ^ n ∣ z - w → w = wrap n z) ∧
    (fits n z = true ↔ wrap n z = z)

/-- R191 to R193: addition, subtraction, multiplication and left shift deliver the exact result when it
fits; otherwise the wrapped one under `wrap` and ArithOverflow under `fault`; the right shift is the
floor; the division truncates toward zero (log 17) and overflows only for `-2^63 / -1`. -/
def Obligations.FixedWidthOperations : Prop :=
  (∀ n, n = 32 ∨ n = 64 → ∀ (a b : Int) (k : Nat) (op : OvfMode → Option Int) (exact : Int),
    ((op = fun m => addN m n a b) ∧ exact = a + b) ∨ ((op = fun m => subN m n a b) ∧ exact = a - b) ∨
      ((op = fun m => mulN m n a b) ∧ exact = a * b) ∨ ((op = fun m => shlN m n a k) ∧ exact = a * 2 ^ k) →
    op .wrap = some (wrap n exact) ∧
    op .fault = if wrap n exact = exact then some exact else none) ∧
  (∀ n, n = 32 ∨ n = 64 → ∀ z : Int,
    narrow .wrap n z = some (wrap n z) ∧
    narrow .fault n z = if wrap n z = z then some z else none) ∧
  (∀ (a : Int) (k : Nat), sar a k * 2 ^ k ≤ a ∧ a < (sar a k + 1) * 2 ^ k) ∧
  sar (-1) 11 = -1 ∧ sar (-2) 8 = -1 ∧ sar (-163839) 11 = -80 ∧ sar 123 8 = 0 ∧
  (∀ (m : OvfMode) (a b : Int), fits 64 a = true → fits 64 b = true → b ≠ 0 →
    ¬ (a = -(2 ^ 63) ∧ b = -1) →
    sdivN m 64 a b = some (a.sign * b.sign * (a.natAbs / b.natAbs : Nat))) ∧
  sdivN .wrap 64 (-(2 ^ 63)) (-1) = some (-(2 ^ 63)) ∧ sdivN .fault 64 (-(2 ^ 63)) (-1) = none

/-- R196, R197: inside NoOvfT both modes give the same, the exact value of the polynomial as R196 writes
it in one line each. -/
def Obligations.TemperatureIsExactInsideNoOvfT : Prop :=
  ∀ (m : OvfMode) (adcT d1 d2 d3 : Int), inRangeT adcT d1 d2 d3 → noOvfT adcT d1 d2 d3 = true →
    let var1 := (adcT / 2 ^ 3 - d1 * 2) * d2 / 2 ^ 11
    let var2 := (adcT / 2 ^ 4 - d1) * (adcT / 2 ^ 4 - d1) / 2 ^ 12 * d3 / 2 ^ 14
    let tFine := var1 + var2
    compT m adcT d1 d2 d3 = some (tFine, (tFine * 5 + 128) / 2 ^ 8)

/-- R195, R197: for all operands in range, under `wrap` CompT delivers a result and its bounds hold;
under `fault` it raises ArithOverflow exactly outside NoOvfT. -/
def Obligations.TemperatureOverflow : Prop :=
  ∀ adcT d1 d2 d3 : Int, inRangeT adcT d1 d2 d3 →
    (∃ tf T, compT .wrap adcT d1 d2 d3 = some (tf, T) ∧
      -1179648 ≤ tf ∧ tf ≤ 1179646 ∧ -23040 ≤ T ∧ T ≤ 23040) ∧
    (compT .fault adcT d1 d2 d3 = none ↔ noOvfT adcT d1 d2 d3 = false)

/-- R195, R199, R200, R201: for all operands in range and any s32 `t_fine`, under `wrap` CompP delivers a
result, and under `fault` it raises ArithOverflow exactly outside NoOvfP in its bare form; inside it both
modes give 0 for a denominator of 0 and else the exact polynomial of R199 (log 17) modulo 2^32. With
`t_fine` in the range CompT gives it, the bare form is that of the eight operations. -/
def Obligations.PressureOverflow : Prop :=
  ∀ (adcP tf : Int) (d : PCoefs), 0 ≤ adcP → adcP < 2 ^ 20 → -(2 ^ 31) ≤ tf → tf < 2 ^ 31 →
    d.inRange →
    (∃ P, compP .wrap adcP tf d = some P) ∧
    (compP .fault adcP tf d = none ↔ noOvfPBare adcP tf d = false) ∧
    (noOvfPBare adcP tf d = true → ∀ m,
      let var1 := tf - 128000
      let var2 := var1 * var1 * d.p6 + var1 * d.p5 * 2 ^ 17 + d.p4 * 2 ^ 35
      let den := (2 ^ 47 + (var1 * var1 * d.p3 / 2 ^ 8 + var1 * d.p2 * 2 ^ 12)) * d.p1 / 2 ^ 33
      let p := Int.tdiv (((1048576 - adcP) * 2 ^ 31 - var2) * 3125) den
      let r := (p + d.p9 * (p / 2 ^ 13) * (p / 2 ^ 13) / 2 ^ 25 + d.p8 * p / 2 ^ 19) / 2 ^ 8 + d.p7 * 2 ^ 4
      (den = 0 → compP m adcP tf d = some 0) ∧
      (den ≠ 0 → ∃ P : Word, compP m adcP tf d = some P ∧ (P.toNat : Int) = r % 2 ^ 32)) ∧
    (-1179648 ≤ tf → tf ≤ 1179646 → noOvfPBare adcP tf d = noOvfP adcP tf d)

/-- R200: the zero denominator: 0 and no division, whenever `0 <= q7 < 2^33`; in particular for every
input with `dig_P1 = 0`; and the command completes with `ERR` as it was and `PRESS = 0`. -/
def Obligations.ZeroDenominatorGivesZero : Prop :=
  (∀ (m : OvfMode) (adcP tf : Int) (d : PCoefs) (a : TempsDen), tempsDen m tf d = some a →
    0 ≤ a.q7 → a.q7 < 2 ^ 33 → a.den = 0 ∧ compP m adcP tf d = some 0) ∧
  (∀ (m : OvfMode) (adcP tf : Int) (d : PCoefs), -1179648 ≤ tf → tf ≤ 1179646 → d.inRange → d.p1 = 0 →
    compP m adcP tf d = some 0) ∧
  ∀ (s : State), s.at .bmpReadP 2 → s.params.ovfMode = .wrap → s.x.digP1 = 0 →
    ∃ tf, exec .bmpReadP s = .next { doneStep s with tFine := tf, press := 0 }

/-- R202: the reference coefficient set never overflows, for all ADC codes, and its denominator is never
zero. -/
def Obligations.ReferenceSetNeverOverflows : Prop :=
  ∀ adcT adcP : Int, 0 ≤ adcT → adcT < 2 ^ 20 → 0 ≤ adcP → adcP < 2 ^ 20 →
    noOvfT adcT refT1 refT2 refT3 = true ∧
    ∃ tf T, compT .fault adcT refT1 refT2 refT3 = some (tf, T) ∧ noOvfP adcP tf refP = true ∧
      (∃ P, compP .fault adcP tf refP = some P ∧ compP .wrap adcP tf refP = some P) ∧
      ∃ a, tempsDen .fault tf refP = some a ∧ 438960198 ≤ a.den ∧ a.den ≤ 794456077

/-- R198, R199, R203 and vectors V51 to V80: worked examples and corner cases of the two functions. -/
def Obligations.CompensationExamples : Prop :=
  compT .fault 519888 refT1 refT2 refT3 = some (128422, 2508) ∧
  compT .wrap 0 refT1 refT2 refT3 = some (-721301, -14088) ∧
  compT .wrap 1048575 refT1 refT2 refT3 = some (960246, 18755) ∧
  compT .wrap 16384 0 (-26) 0 = some (-26, -1) ∧ compT .wrap 8 0 (-1) 0 = some (-1, 0) ∧
  compT .wrap 1048575 0 32767 0 = some (-80, -2) ∧ compT .fault 1048575 0 32767 0 = none ∧
  compP .fault 415148 128422 refP = some 25767233 ∧ compP .fault 0 128422 refP = some 44339071 ∧
  compP .fault 1048575 128422 refP = some 4293269792 ∧
  compP .wrap 415148 128000 ⟨1, 0, 0, 0, 0, 0, 0, 0, 0⟩ = some 4167485440 ∧
  compP .wrap 1048575 128000 ⟨65535, 0, 0, 0, 0, 0, -32768, 0, 0⟩ = some 4294443032 ∧
  compP .wrap 0 128000 ⟨1, 0, 0, 0, 0, 0, 0, 0, 32767⟩ = some 3733159936 ∧
  compP .fault 0 128000 ⟨1, 0, 0, 0, 0, 0, 0, 0, 32767⟩ = none

/-- R232, R233, R235: the display conversions are correctly rounded in every admitted format: the result
has the format's precision, no number of that precision is nearer to the exact rational, and in a tie
the significand is even. -/
def Obligations.ConversionsAreCorrectlyRounded : Prop :=
  ∀ (f : FloatFormat), f.Admitted →
    (∀ (t : Temperature) (v : FloatVal), v = t.toCelsius f →
      holdsIn f v ∧ ∀ w : FloatVal, holdsIn f w →
        |v.toRat - (t.raw.toInt : ℚ) / 100| ≤ |w.toRat - (t.raw.toInt : ℚ) / 100| ∧
        (|v.toRat - (t.raw.toInt : ℚ) / 100| = |w.toRat - (t.raw.toInt : ℚ) / 100| →
          v.toRat ≠ w.toRat → v.mant % 2 = 0)) ∧
    ∀ (p : Pressure) (v : FloatVal), v = p.toHpa f →
      holdsIn f v ∧ ∀ w : FloatVal, holdsIn f w →
        |v.toRat - (p.raw.toNat : ℚ) / 25600| ≤ |w.toRat - (p.raw.toNat : ℚ) / 25600| ∧
        (|v.toRat - (p.raw.toNat : ℚ) / 25600| = |w.toRat - (p.raw.toNat : ℚ) / 25600| →
          v.toRat ≠ w.toRat → v.mant % 2 = 0)

/-- R232, R233, R235, vectors V81 to V91: SCDOC's two examples in both usual formats, and bit patterns of
the spec. -/
def Obligations.ConversionExamples : Prop :=
  ((Temperature.mk 2500).toCelsius .binary64).bits .binary64 = 0x4039000000000000 ∧
  ((Temperature.mk 2500).toCelsius .binary32).bits .binary32 = 0x41C80000 ∧
  ((Temperature.mk 0xFFFFFFFF).toCelsius .binary64).bits .binary64 = 0xBF847AE147AE147B ∧
  ((Temperature.mk 0).toCelsius .binary64).bits .binary64 = 0 ∧
  ((Pressure.mk 25932800).toHpa .binary64).bits .binary64 = 0x408FA80000000000 ∧
  ((Pressure.mk 25932800).toHpa .binary32).bits .binary32 = 0x447D4000 ∧
  ((Pressure.mk 25767233).toHpa .binary32).bits .binary32 = 0x447BA215 ∧
  ((Pressure.mk 0xFFFFFFFF).toHpa .binary32).bits .binary32 = 0x4823D70A

/-! ### Exceptions, hang, time -/

/-- R240, R248: what taking an exception does, and nothing else: outside a failing construction of the
BMP280 driver every other field stays; inside one, nothing is claimed of `x` (R262). That `x` stays when
BMP_INIT raises with `BMP_READY = 1` is the model's reading (log 9, DEDUCED, unsafe), by R244 and vector
V99, against the letter of R262. ERRKIND takes the classification as it is (log 7). -/
def Obligations.RaiseEffect : Prop :=
  ∀ (e : Exc) (code : BitVec 3) (s : State),
    (match e with
      | .transportFailure _ => code = 1
      | .illegalCommand => code = 2
      | .notReady => code = 3
      | .alreadyInit => code = 4
      | .illegalConfig => code = 5
      | .arithOverflow => code = 6) →
    (∃ x' n', raise e s = { abortedWith s.seq.op code s with
      errKind := (match e with | .transportFailure k => k | _ => s.errKind), x := x', freeCtr := n' }) ∧
    ((s.seq.op ≠ 0x4#4 ∨ s.bmpReady = true) → (raise e s).x = s.x) ∧
    errCode (raise e s).errInfo = code ∧ errOp (raise e s).errInfo = s.seq.op

/-- R195, R261: ArithOverflow exists only under OVF_MODE fault: under OVF_MODE wrap no step ever raises it
(BmpReadTSteps and BmpReadPSteps say when it is raised, and that TEMP, PRESS and T_FINE stay). -/
def Obligations.ArithOverflowOnlyUnderFault : Prop :=
  ∀ s s' : State, s.params.ovfMode = .wrap → step s = .next s' → errCode s.errInfo ≠ 6#3 →
    errCode s'.errInfo ≠ 6#3

/-- R79, R258: when the call never returns, or no answer is left, the command stays in its step for any
number of steps, with the transaction in flight and everything else, BUSY included, as it was. An RST
ends the hang, and a later transaction has the answer that stands after that call's entry (log 16). -/
def Obligations.UnansweredTransactionHangs : Prop :=
  (∀ (s : State) (t : Txn) (n : Nat), s.host = [] → Unanswered s → stepTxn s = some t →
    Host.Core.run core (n + 1) s = .next { s with inflight := some t }) ∧
  ∀ (s : State) (t : Txn) (later : List Answer) (rest : List HostAct), s.host = .pass :: .rst :: rest →
    s.answers = .never :: later → stepTxn s = some t →
    ∃ s', Host.Core.run core 2 s = .next s' ∧ s'.seq = Seq.idle ∧ s'.busy = false ∧ s'.inflight = none ∧
      s'.answers = later ∧ s'.host = rest ∧ s'.trace = .reset (some t) :: s.trace

/-- R253: a Delay step ends only when the milliseconds counted since it began reach `n`; until then only
the count moves; and it is always eventually over: the SCSE leaves the step within as many steps as
the platform's list has entries and `n` more (the list's end is the model's, log 4). -/
def Obligations.DelayIsALowerBoundAndEnds : Prop :=
  ∀ (s : State) (n : Nat), s.host = [] →
    ((s.at .bhInit 1 ∨ s.at .bhRead 1) ∧ settleMs s.cLat = some n ∨ s.at .bmpInit 1 ∧ n = 2) →
    (s.timer + s.ticks.headD 1 < n →
      step s = .next { s with timer := s.timer + s.ticks.headD 1, ticks := s.ticks.tail }) ∧
    ∃ m, m ≤ s.ticks.length + n + 1 ∧
      Host.Core.run core m s = .next { s with
        timer := 0, ticks := s.ticks.drop m, trace := .delay n :: s.trace,
        seq := ⟨s.seq.op, s.seq.step + 1⟩ }

/-! ### Whole-machine rules and invariants -/

/-- All invariants below hold where a run starts: after reset, whatever the parameters and whatever the
host, the transport and the timer do later. -/
def Obligations.InvariantsHoldAtStart : Prop :=
  ∀ p h a k, RegInv (State.start p h a k) ∧ TraceListed (State.start p h a k) ∧
    SettleInv (State.start p h a k) ∧ PairingInv (State.start p h a k) ∧
    EvidenceInv (State.start p h a k)

/-- R26, R27, R31, R33 to R35, R39, R120: every step keeps the invariant of the registers and of the
sequencer: SEQ legal, BUSY agreeing with it, ERR with ERR_CODE, reserved bits zero, admission checks
in force, the latched wire command. -/
def Obligations.StepKeepsRegInv : Prop :=
  ∀ s s' : State, RegInv s → step s = .next s' → RegInv s'

/-- R120, R131, R132: from a state with the invariant no step ends in a fault, and the only refusal is of
an answer with a number of bytes that the transport contract excludes (log 3). -/
def Obligations.RegInvExcludesFaults : Prop :=
  ∀ s : State, RegInv s → (∀ f, step s ≠ .fault f) ∧
    ∀ r, step s = .refused r → r = .transportContract ∧
      ∃ t u bs rest, turn s = .scse u ∧ stepTxn u = some t ∧ s.answers = .ok bs :: rest ∧
        bs.length ≠ t.rxLen

/-- R61, R70, R120: every transaction ever made or in flight is one of the table of R70, answered with
the bytes asked for or an error; in particular BH_POWER_UP and BH_RESET are never sent. -/
def Obligations.StepKeepsTraceListed : Prop :=
  ∀ s s' : State, TraceListed s → step s = .next s' → TraceListed s'

/-- R134, R274: every step keeps: right after a wire command that a BH1750 took stands the Delay labelled
with that command's settle time, or a reset. So nothing is sent or read before the delay is over. -/
def Obligations.StepKeepsSettleInv : Prop :=
  ∀ s s' : State, SettleInv s → step s = .next s' → SettleInv s'

/-- R75, R168, R276: every step keeps: right before any read of the pressure registers stands a successful
read of the temperature registers. -/
def Obligations.StepKeepsPairingInv : Prop :=
  ∀ s s' : State, PairingInv s → step s = .next s' → PairingInv s'

/-- R22, R75, R173: every step keeps: a constructed BMP280 driver has in the trace, since the last reset,
the calibration read, the 2 ms delay and the two writes in order, all successful, with the
configuration still in force, and holds the coefficients of the block that was read. -/
def Obligations.StepKeepsEvidenceInv : Prop :=
  ∀ s s' : State, EvidenceInv s → step s = .next s' → EvidenceInv s'

/-- R22, R262, R270: only three things change the coefficients: BMP_INIT's step s0 with a block received,
a BMP_INIT that fails, and reset. -/
def Obligations.CoefficientsChangeOnlyInInit : Prop :=
  ∀ s s' : State, step s = .next s' → s'.x ≠ s.x →
    resetNext s ∨
    (s.at .bmpInit 0 ∧ s.bmpReady = false ∧ ∃ k rest, s.answers = .ok k :: rest ∧ k.length = 24 ∧
      s'.x = calParse k) ∨
    (s.seq.op = 0x4#4 ∧ s.bmpReady = false ∧ s'.err = true ∧ s'.seq = Seq.idle)

/-- R35 to R39, R249: the result registers change only in a step that ends a command without an exception
(or by reset): a command that ends with `ERR = 1`, or is still running, leaves them as they were. -/
def Obligations.ResultsChangeOnlyOnSuccess : Prop :=
  ∀ s s' : State, RegInv s → step s = .next s' → ¬ resetNext s → resultsOf s' ≠ resultsOf s →
    s.busy = true ∧ s'.busy = false ∧ s'.done = true ∧ s'.err = false

/-- R27: what changes the flags: BUSY is set only by an accepted write of CMD, ERR only together with DONE
and the end of BUSY, DONE only by the end of a command (or an illegal command word), the ready flags only
by the last steps of BH_INIT and BMP_INIT; BUSY is cleared only by `done`, `raise` and reset, DONE and ERR
only by an accepted write of CMD and reset, the ready flags by reset only. -/
def Obligations.FlagsChangeOnlyAsListed : Prop :=
  ∀ s s' : State, step s = .next s' →
    (s.busy = false → s'.busy = true → ∃ w rest, s.host = .write 0x00 w :: rest ∧ decodeCmd w ≠ none) ∧
    (s.err = false → s'.err = true → s'.busy = false ∧ s'.done = true ∧ errCode s'.errInfo ≠ 0#3) ∧
    (s.bhReady = false → s'.bhReady = true → s.at .bhInit 2) ∧
    (s.bmpReady = false → s'.bmpReady = true → s.at .bmpInit 4) ∧
    (s.done = false → s'.done = true → s'.busy = false ∧ s'.seq = Seq.idle ∧
      (s.seq ≠ Seq.idle ∨ ∃ w rest, s.host = .write 0x00 w :: rest ∧ decodeCmd w = none)) ∧
    (s.busy = true → s'.busy = false → resetNext s ∨ (s'.done = true ∧ s'.seq = Seq.idle)) ∧
    (s.done = true → s'.done = false →
      resetNext s ∨ ∃ w rest, s.host = .write 0x00 w :: rest ∧ s.busy = false) ∧
    (s.err = true → s'.err = false →
      resetNext s ∨ ∃ w rest, s.host = .write 0x00 w :: rest ∧ s.busy = false) ∧
    (s.bhReady = true → s'.bhReady = false → resetNext s) ∧
    (s.bmpReady = true → s'.bmpReady = false → resetNext s)

/-- R44, R69, R257: no step changes the parameters, and while SEQ is IDLE nothing is sent: the trace stays
as it is but for the mark of a reset. -/
def Obligations.IdleIsSilent : Prop :=
  ∀ s s' : State, step s = .next s' →
    s'.params = s.params ∧
    (s.seq = Seq.idle →
      (s'.trace = s.trace ∧ s'.inflight = s.inflight) ∨
      (s'.trace = .reset s.inflight :: s.trace ∧ s'.inflight = none))
end

