-- ==== Sys2Proof/Tests/Slice0.lean ====
section
/-! SUPPORT. The model's own tests. Expected values come from the spec: the vectors of 95_test_vectors
(V and S numbers), its programs (P1 to P5) and the tables of the rules. Then one witness for each statement
with hypotheses: concrete states and operands that meet them, clause by clause. -/

open Sys2Proof Sys2Proof.Machine

namespace Sys2Proof.Tests

/-! ### Well-formedness: what each check refuses -/

theorem test_wf_write_empty : Txn.wf (.write 0x23 []) = false := by decide
theorem test_wf_read_zero : Txn.wf (.read 0x23 0) = false := by decide
theorem test_wf_writeRead_empty : Txn.wf (.writeRead 0x76 [] 3) = false := by decide
theorem test_wf_writeRead_zero : Txn.wf (.writeRead 0x76 [0xFA] 0) = false := by decide
theorem test_wf_stmt_wire_row : Stmt.wf (.cmd .bhOtHigh) = false := by decide
theorem test_wf_stmt_register_row : Stmt.wf (.cmd .bmpRegTemp) = false := by decide
theorem test_wf_accepts : Txn.wf (.write 0x23 [0x20]) = true ∧ Txn.wf (.read 0x23 2) = true ∧
    Txn.wf (.writeRead 0x76 [0x88] 24) = true ∧ Stmt.wf (.cmd .bmpReset) = true := by decide
/-- R70, R120: no other transaction, length or address. -/
theorem test_unlisted_wire_bytes : Txn.listed (.write 0x23 [0x01]) = false ∧
    Txn.listed (.write 0x23 [0x07]) = false ∧ Txn.listed (.write 0x24 [0x20]) = false := by decide
theorem test_unlisted_lengths : Txn.listed (.read 0x23 3) = false ∧
    Txn.listed (.writeRead 0x76 [0x88] 23) = false ∧ Txn.listed (.writeRead 0x76 [0xF7] 6) = false ∧
    Txn.listed (.write 0x76 [0xF4]) = false := by decide
theorem test_unlisted_registers : Txn.listed (.write 0x76 [0xF3, 0x00]) = false ∧
    Txn.listed (.writeRead 0x76 [0xF4] 1) = false ∧ Txn.listed (.writeRead 0x23 [0xFA] 3) = false := by
  decide

/-! ### Decoding: words written from R92, R95 to R103, R105 to R112 -/

theorem test_decode_bhInit : decode .host [0b00000001] = .ok (.bhInit, []) := by decide
theorem test_decode_bhRead : decode .host [0b00000010] = .ok (.bhRead, []) := by decide
theorem test_decode_bmpInit : decode .host [0b00000100] = .ok (.bmpInit, []) := by decide
theorem test_decode_bmpReadT : decode .host [0b00000101] = .ok (.bmpReadT, []) := by decide
theorem test_decode_bmpReadP : decode .host [0b00000110] = .ok (.bmpReadP, []) := by decide
theorem test_decode_bmpReadId : decode .host [0b00000111] = .ok (.bmpReadId, []) := by decide
theorem test_decode_bmpReadStatus : decode .host [0b00001000] = .ok (.bmpReadStatus, []) := by decide
theorem test_decode_bmpReset : decode .host [0b00001001] = .ok (.bmpReset, []) := by decide
theorem test_decode_bhPowerDown : decode .bh1750 [0b00000000] = .ok (.bhPowerDown, []) := by decide
theorem test_decode_bhPowerUp : decode .bh1750 [0b00000001] = .ok (.bhPowerUp, []) := by decide
theorem test_decode_bhReset : decode .bh1750 [0b00000111] = .ok (.bhReset, []) := by decide
theorem test_decode_bhContHigh : decode .bh1750 [0b00010000] = .ok (.bhContHigh, []) := by decide
theorem test_decode_bhContUhigh : decode .bh1750 [0b00010001] = .ok (.bhContUhigh, []) := by decide
theorem test_decode_bhContLow : decode .bh1750 [0b00010011] = .ok (.bhContLow, []) := by decide
theorem test_decode_bhOtHigh : decode .bh1750 [0b00100000] = .ok (.bhOtHigh, []) := by decide
theorem test_decode_bhOtUhigh : decode .bh1750 [0b00100001] = .ok (.bhOtUhigh, []) := by decide
theorem test_decode_bhOtLow : decode .bh1750 [0b00100011] = .ok (.bhOtLow, []) := by decide
theorem test_decode_bmpRegCalib : decode .bmp280 [0b10001000] = .ok (.bmpRegCalib, []) := by decide
theorem test_decode_bmpRegId : decode .bmp280 [0b11010000] = .ok (.bmpRegId, []) := by decide
theorem test_decode_bmpRegReset :
    decode .bmp280 [0b11100000, 0b10110111] = .ok (.bmpRegReset, [0b10110111]) := by decide
theorem test_decode_bmpRegStatus : decode .bmp280 [0b11110011] = .ok (.bmpRegStatus, []) := by decide
theorem test_decode_bmpRegCtrl :
    decode .bmp280 [0b11110100, 0b00100111] = .ok (.bmpRegCtrl, [0b00100111]) := by decide
theorem test_decode_bmpRegConfig :
    decode .bmp280 [0b11110101, 0b00100000] = .ok (.bmpRegConfig, [0b00100000]) := by decide
theorem test_decode_bmpRegPress : decode .bmp280 [0b11110111] = .ok (.bmpRegPress, []) := by decide
theorem test_decode_bmpRegTemp : decode .bmp280 [0b11111010] = .ok (.bmpRegTemp, []) := by decide
/-- R93: the illegal words at the edges of their ranges. -/
theorem test_decode_illegal :
    decode .host [0x00] = .error .unassignedOpcode ∧ decode .host [0x03] = .error .unassignedOpcode ∧
      decode .host [0x0A] = .error .unassignedOpcode ∧ decode .host [0x0F] = .error .unassignedOpcode ∧
      decode .host [0x10] = .error .zeroField ∧ decode .host [0xFF] = .error .zeroField ∧
      decode .host [] = .error .noByte := by decide
theorem test_decode_other_ports :
    decode .bh1750 [0x02] = .error .unknownWireByte ∧ decode .bmp280 [0x89] = .error .unknownRegister := by
  decide
theorem test_table_words :
    decodeTableWord 8 0x05 = some .bmpReadT ∧ decodeTableWord 8 0x13 = some .bhContLow ∧
      decodeTableWord 16 0x27F4 = some .bmpRegCtrl ∧ decodeTableWord 8 0x88 = some .bmpRegCalib ∧
      decodeTableWord 8 0x03 = none := by decide

/-! ### States for the step tests -/

/-- A command in progress at a step, with the transport's answers to come. -/
def running (i : Instr) (k : BitVec 3) (a : List Answer) : State :=
  { State.reset with busy := true, seq := ⟨opcodeOf i, k⟩, answers := a }

/-- The same with both drivers constructed. -/
def built (i : Instr) (k : BitVec 3) (a : List Answer) : State :=
  { running i k a with bhReady := true, bmpReady := true }

/-- Reset, with the host about to act. -/
def asked (h : List HostAct) : State := { State.reset with host := h }

/-- What a field is after a step that answers a next state. -/
def after {α : Type} (f : State → α) (r : Result State) : Option α :=
  match r with
  | .next s => some (f s)
  | .fault _ => none
  | .refused _ => none

/-- STATUS and ERRINFO, as section 2.11 of the vectors gives them. -/
def marks (s : State) : Word × Word := (statusWord s, s.errInfo)

/-- The calibration block of V20. -/
def blockV20 : List Byte :=
  [0x70, 0x6B, 0x43, 0x67, 0x18, 0xFC, 0x7D, 0x8E, 0x43, 0xD6, 0xD0, 0x0B] ++
    [0x27, 0x0B, 0x8C, 0x00, 0xF9, 0xFF, 0x8C, 0x3C, 0xF8, 0xC6, 0x70, 0x17]

/-- The coefficients of V20. -/
def coefV20 : Calib := calParse blockV20

/-! ### Host accesses -/

/-- V93, V94: an illegal word, with `ERR_OP = w[3:0]`. -/
theorem test_illegal_V93 : after marks (step (asked [.write 0 3])) = some (0x06, 0x32) := by decide
theorem test_illegal_V94 : after marks (step (asked [.write 0 0x12])) = some (0x06, 0x22) := by decide
/-- V95: bits 31:8 are ignored. -/
theorem test_accept_V95 : after (·.seq) (step (asked [.write 0 0xFFFFFF01])) = some ⟨1, 0⟩ := by decide
/-- V107: ERR and DONE cleared at acceptance, ERRKIND not. -/
theorem test_accept_V107 :
    after (fun s => (marks s, s.errKind))
      (step { asked [.write 0 2] with err := true, done := true, errInfo := 0x21, errKind := 9 }) =
      some ((0x01, 0), 9) := by decide
/-- V106: the lock. -/
theorem test_lock_V106 :
    after (·.bhCfg) (step { asked [.write 4 0] with bhReady := true, bhCfg := 7 }) = some 7 := by decide
/-- R33, R34: the stored bits. -/
theorem test_config_bits :
    after (·.bhCfg) (step (asked [.write 4 0xFFFFFFFF])) = some 0xF ∧
      after (·.bmpCfg) (step (asked [.write 5 0xFFFFFFFF])) = some 0x1FFF := by decide
/-- R41: a reserved index reads as zero. -/
theorem test_reserved_read :
    after (·.reads) (step (asked [.read 0x3F])) = some [(0x3F, 0)] := by decide
/-- V20: the host view of the coefficients. -/
theorem test_dig_V20 :
    hostView { built .bmpReadT 0 [] with x := coefV20 } 0x12 = 0xFFFFFC18 ∧
      hostView { built .bmpReadT 0 [] with x := coefV20 } 0x13 = 0x00008E7D := by decide
/-- R270: reset in the middle of a command. -/
theorem test_reset_midway :
    after (fun s => (marks s, s.seq, s.trace))
      (step { built .bmpReadT 0 [] with
        host := [.rst], inflight := some (.writeRead 0x76 [0xFA] 3) }) =
      some ((0, 0), ⟨0, 0⟩, [.reset (some (.writeRead 0x76 [0xFA] 3))]) := by decide
/-- R79, R258, R270: a call that never returns is cut by RST, and the next BMP_READ_T is served. -/
theorem test_reset_after_hang :
    after (fun s => (s.inflight, s.answers)) (step (built .bmpReadT 0 [.never, .ok [1, 2, 3]])) =
        some (some (.writeRead 0x76 [0xFA] 3), [.never, .ok [1, 2, 3]]) ∧
      after (fun s => (s.seq, s.answers))
        (step { built .bmpReadT 0 [.never, .ok [1, 2, 3]] with
          host := [.rst], inflight := some (.writeRead 0x76 [0xFA] 3) }) =
        some (⟨0, 0⟩, [.ok [1, 2, 3]]) := by decide
/-- R123: a value, an error (V100), and a construction. -/
theorem test_capability :
    capabilityOutcome .lightRead { asked [] with done := true, lux := 0x100 } = .light 0x0100 ∧
      capabilityOutcome .pressureRead { asked [] with done := true, err := true, errInfo := 0x61, errKind := 7 } =
        .error 0x61 7 ∧
      capabilityOutcome (.constructBmp280 0) { asked [] with bhReady := true } = .constructed false ∧
      capabilityOutcome (.constructBh1750 0) { asked [] with bhReady := true } = .constructed true := by decide
/-- R122: the encoding of `CMD BH_READ`. -/
theorem test_script_cmd : scriptActs [.cmd .bhRead] = [.write 0x00 0x00000002, .await] := by decide

/-! ### BH1750 -/

/-- V83, V98. -/
theorem test_bhInit_V83 :
    after marks (step { running .bhInit 0 [] with bhCfg := 4 }) = some (0x06, 0x15) := by decide
theorem test_bhInit_V98 :
    after marks (step { running .bhInit 0 [] with bhReady := true }) = some (0x0E, 0x14) := by decide
/-- V96; V100. -/
theorem test_bhRead_V96 : after marks (step (running .bhRead 0 [])) = some (0x06, 0x23) := by decide
theorem test_bhRead_V100 :
    after (fun s => (marks s, s.errKind, s.trace))
      (step { running .bhRead 2 [.err 7] with bhReady := true }) =
      some ((0x0E, 0x21), 7, [.txn (.read 0x23 2) (.err 7)]) := by decide
/-- R137: the worked example's light value, V21. -/
theorem test_bhRead_V21 :
    after (·.lux) (step { built .bhRead 3 [] with bhBuf := ⟨0x12, 0x34⟩ }) = some 0x00001234 := by decide
/-- R137: continuous mode skips to s2. -/
theorem test_bhRead_skip : after (·.seq) (step (built .bhRead 0 [])) = some ⟨2, 2⟩ := by decide
/-- R136: the delay of 180 ms is not over after 179 (R253), and is after 180. -/
theorem test_bhInit_delay :
    after (·.seq) (step { running .bhInit 1 [] with cLat := 0x11, ticks := [179] }) = some ⟨1, 1⟩ ∧
      after (fun s => (s.seq, s.trace))
        (step { running .bhInit 1 [] with cLat := 0x11, timer := 179, ticks := [1] }) =
        some (⟨1, 2⟩, [.delay 180]) := by decide
/-- The first event and `c_lat` after a wire command is taken, at the secondary address. -/
def wireSent (i : Instr) : Option (Byte × List BusEvent) :=
  after (fun s => (s.cLat, s.trace)) (exec i { running .bhInit 0 [.ok []] with bhCfg := 1 })
theorem test_wire_powerDown : wireSent .bhPowerDown = some (0x00, [.txn (.write 0x5C [0x00]) (.ok [])]) := by
  decide
theorem test_wire_powerUp : wireSent .bhPowerUp = some (0x01, [.txn (.write 0x5C [0x01]) (.ok [])]) := by
  decide
theorem test_wire_reset : wireSent .bhReset = some (0x07, [.txn (.write 0x5C [0x07]) (.ok [])]) := by decide
theorem test_wire_contHigh : wireSent .bhContHigh = some (0x10, [.txn (.write 0x5C [0x10]) (.ok [])]) := by
  decide
theorem test_wire_contUhigh : wireSent .bhContUhigh = some (0x11, [.txn (.write 0x5C [0x11]) (.ok [])]) := by
  decide
theorem test_wire_contLow : wireSent .bhContLow = some (0x13, [.txn (.write 0x5C [0x13]) (.ok [])]) := by
  decide
theorem test_wire_otHigh : wireSent .bhOtHigh = some (0x20, [.txn (.write 0x5C [0x20]) (.ok [])]) := by decide
theorem test_wire_otUhigh : wireSent .bhOtUhigh = some (0x21, [.txn (.write 0x5C [0x21]) (.ok [])]) := by
  decide
theorem test_wire_otLow : wireSent .bhOtLow = some (0x23, [.txn (.write 0x5C [0x23]) (.ok [])]) := by decide

/-! ### BMP280 -/

/-- V99; the calibration read of P2. -/
theorem test_bmpInit_V99 :
    after (fun s => (marks s, s.x)) (step { running .bmpInit 0 [] with bmpReady := true, x := coefV20 }) =
      some ((0x16, 0x44), coefV20) := by decide
theorem test_bmpInit_calib :
    after (fun s => (s.x.digT3.toInt, s.x.digP1.toNat, s.x.digP9.toInt, s.seq))
      (step (running .bmpInit 0 [.ok blockV20])) = some (-1000, 36477, 6000, ⟨4, 1⟩) := by decide
/-- V105 under `fault` and under `wrap`. -/
def stateV105 (m : OvfMode) : State :=
  { running .bmpReadT 1 [] with
    bmpReady := true, adcTBuf := ⟨0xFF, 0xFF, 0xF0⟩, x := { Calib.zero with digT2 := 32767 },
    params := { Params.decided with ovfMode := m } }
theorem test_bmpReadT_V105 :
    after (fun s => (marks s, s.temp)) (step (stateV105 .fault)) = some ((0x16, 0x56), 0) ∧
      after (fun s => (marks s, s.temp, s.tFine)) (step (stateV105 .wrap)) =
        some ((0x12, 0), 0xFFFFFFFE, 0xFFFFFFB0) := by decide
/-- P2: 2508 and 128422. -/
theorem test_bmpReadT_P2 :
    after (fun s => (s.temp, s.tFine))
      (step { built .bmpReadT 1 [] with adcTBuf := ⟨0x7E, 0xED, 0x00⟩, x := coefV20 }) =
      some (0x000009CC, 0x0001F5A6) := by decide
/-- P2: 25767233; V104. -/
theorem test_bmpReadP_P2 :
    after (fun s => (s.press, s.tFine, s.temp))
      (step { built .bmpReadP 2 [] with
        adcTBuf := ⟨0x7E, 0xED, 0x00⟩, adcPBuf := ⟨0x65, 0x5A, 0xC0⟩, x := coefV20, temp := 5 }) =
      some (0x01892D41, 0x0001F5A6, 5) := by decide
theorem test_bmpReadP_V104 :
    after (fun s => (marks s, s.press))
      (step { running .bmpReadP 2 [] with
        bmpReady := true, adcTBuf := ⟨0x80, 0, 0⟩, adcPBuf := ⟨0x80, 0, 0⟩, press := 5,
        x := { coefV20 with digP1 := 0 } }) = some ((0x12, 0), 0) := by decide
/-- V97; R169's example. -/
theorem test_bmpReadId_V97 : after marks (step (running .bmpReadId 0 [])) = some (0x06, 0x73) := by decide
theorem test_bmpReadId_aux :
    after (·.aux) (step { built .bmpReadId 1 [] with auxBuf := 0x58, aux := 0x309 }) = some 0x00000058 := by
  decide
/-- V97; V48 and V49. -/
theorem test_bmpReadStatus_V97 :
    after marks (step (running .bmpReadStatus 0 [])) = some (0x06, 0x83) := by decide
theorem test_bmpReadStatus_V48 :
    after (·.aux) (step { built .bmpReadStatus 1 [] with auxBuf := 0x09 }) = some 0x00000309 ∧
      after (·.aux) (step { built .bmpReadStatus 1 [] with auxBuf := 0xF6 }) = some 0x000000F6 := by decide
/-- V97; P4's last transaction. -/
theorem test_bmpReset_V97 : after marks (step (running .bmpReset 0 [])) = some (0x06, 0x93) := by decide
theorem test_bmpReset_P4 :
    after (·.trace) (step (built .bmpReset 0 [.ok []])) =
      some [.txn (.write 0x76 [0xE0, 0xB7]) (.ok [])] := by decide
/-- A register access at the secondary address with P4's configuration 0x1555. -/
def access (i : Instr) (a : Answer) : Option (List BusEvent) :=
  after (·.trace) (exec i { running .bmpInit 2 [a] with bmpCfg := 0x1555 })
theorem test_reg_calib :
    access .bmpRegCalib (.ok blockV20) = some [.txn (.writeRead 0x77 [0x88] 24) (.ok blockV20)] := by decide
theorem test_reg_id : access .bmpRegId (.ok [0x58]) = some [.txn (.writeRead 0x77 [0xD0] 1) (.ok [0x58])] := by
  decide
theorem test_reg_status :
    access .bmpRegStatus (.ok [0x09]) = some [.txn (.writeRead 0x77 [0xF3] 1) (.ok [0x09])] := by decide
theorem test_reg_press :
    access .bmpRegPress (.ok [1, 2, 3]) = some [.txn (.writeRead 0x77 [0xF7] 3) (.ok [1, 2, 3])] := by decide
theorem test_reg_temp :
    access .bmpRegTemp (.ok [1, 2, 3]) = some [.txn (.writeRead 0x77 [0xFA] 3) (.ok [1, 2, 3])] := by decide
theorem test_reg_reset :
    access .bmpRegReset (.ok []) = some [.txn (.write 0x77 [0xE0, 0xB7]) (.ok [])] := by decide
theorem test_reg_ctrl :
    access .bmpRegCtrl (.ok []) = some [.txn (.write 0x77 [0xF4, 0x57]) (.ok [])] := by decide
theorem test_reg_config :
    access .bmpRegConfig (.ok []) = some [.txn (.write 0x77 [0xF5, 0xE0]) (.ok [])] := by decide
/-- V40: the unflawed layout as the parameter gives it. -/
theorem test_config_shift2 : configPack { Params.decided with filterShift := 2 } 5 2 = 0xA8 := by decide

/-! ### The datapath: vectors that no statement quotes -/

theorem test_compT_V61 : compT .fault 530000 28000 26000 50 = some (130145, 2542) := by decide
theorem test_compT_V67 : compT .wrap 1048575 0 0 32767 = some (-64, -1) := by decide
theorem test_compP_V74 :
    compP .fault 350000 130145 ⟨38000, -10500, 3024, 7000, -100, -7, 15500, -14600, 6000⟩ =
      some 24691091 := by decide
theorem test_compP_V78 :
    compP .wrap 0 1179646 ⟨65535, 32767, 32767, 0, 0, 0, 0, 0, 0⟩ = some 4269143019 ∧
      compP .fault 0 1179646 ⟨65535, 32767, 32767, 0, 0, 0, 0, 0, 0⟩ = none := by decide
/-- R201: with `dig_P1 = 0`, `dig_P6 = 32767` and the largest s32 `t_fine` the exact `p2` is above 2^63 - 1,
while `q7 = 0`. -/
theorem test_compP_bare :
    noOvfPBare 0 2147483647 ⟨0, 0, 0, 0, 0, 32767, 0, 0, 0⟩ = false ∧
      compP .fault 0 2147483647 ⟨0, 0, 0, 0, 0, 32767, 0, 0, 0⟩ = none ∧
      compP .wrap 0 2147483647 ⟨0, 0, 0, 0, 0, 32767, 0, 0, 0⟩ = some 0 := by decide
theorem test_toHpa_V90 :
    ((Pressure.mk 0xFFFFFFFF).toHpa .binary64).bits .binary64 = 0x41047AE14799999A := by decide

/-! ### Placing a table word -/

theorem test_fetch_host : after marks (step (State.reset.withFetchWord 8 0x02)) = some (0x06, 0x23) := by
  decide
theorem test_fetch_wire :
    after (·.inflight) (step (State.reset.withFetchWord 8 0x21)) = some (some (.write 0x23 [0x21])) := by decide
theorem test_fetch_register :
    after (·.inflight) (step (State.reset.withFetchWord 16 0x27F4)) =
      some (some (.write 0x76 [0xF4, 0x03])) := by decide
theorem test_fetch_illegal : after marks (step (State.reset.withFetchWord 8 0x03)) = some (0x06, 0x32) := by
  decide

/-! ### Witnesses: states and operands that meet the hypotheses of the statements, clause by clause -/

/-- A BH1750 configuration in one-time mode, low resolution, secondary address. -/
def oneTimeLow : Word := 0xF

theorem witness_StepRunsTheCommandInSeq :
    ((running .bhInit 0 []).host = [] ∧
      decode .host [(running .bhInit 0 []).seq.op.zeroExtend 8] = .ok (.bhInit, [])) ∧
    (({ running .bmpReset 1 [] with host := [.pass, .rst] }).host = .pass :: [.rst] ∧
      decode .host [(running .bmpReset 1 []).seq.op.zeroExtend 8] = .ok (.bmpReset, [])) ∧
    (({ running .bmpReadP 2 [] with host := [.await] }).host = .await :: [] ∧
      (running .bmpReadP 2 []).busy = true ∧
      decode .host [(running .bmpReadP 2 []).seq.op.zeroExtend 8] = .ok (.bmpReadP, [])) := by decide

theorem witness_StepTakesTheHostAction :
    (asked [.write 4 1]).host = .write 4 1 :: [] ∧ (asked [.read 1]).host = .read 1 :: [] ∧
      (asked [.rst, .read 1]).host = .rst :: [.read 1] ∧
      ((asked [.await]).host = .await :: [] ∧ (asked [.await]).busy = false) ∧
      ((asked []).host = [] ∧ (asked []).seq = Seq.idle) := by decide

theorem witness_StepRunsTheCarriedRow :
    (turn (running .bmpInit 2 [.ok []]) = .scse (running .bmpInit 2 [.ok []]) ∧
      carriedRow (running .bmpInit 2 [.ok []]) = some .bmpRegCtrl) ∧
    (turn { running .bhInit 0 [] with bhCfg := 2 } = .scse { running .bhInit 0 [] with bhCfg := 2 } ∧
      carriedRow { running .bhInit 0 [] with bhCfg := 2 } = some .bhContUhigh) ∧
    carriedRow { built .bhRead 0 [] with bhCfg := oneTimeLow } = some .bhOtLow := by decide

theorem witness_IllegalCommandRaised :
    ((asked [.write 0 0x0F]).host = .write 0x00 0x0F :: [] ∧ (asked [.write 0 0x0F]).busy = false ∧
      decodeCmd 0x0F = none) ∧ decodeCmd 0x0A = none ∧ decodeCmd 0x00 = none ∧ decodeCmd 0x10 = none ∧
      decodeCmd 0x03 = none ∧ decodeCmd 0x09 = some .bmpReset := by decide

theorem witness_AcceptedCommandWrite :
    ((asked [.write 0 0x00000009]).host = .write 0x00 0x00000009 :: [] ∧ (asked []).busy = false ∧
      decode .host [(0x00000009 : Word).extractLsb' 0 8] = .ok (.bmpReset, [])) ∧
    (0xFFFFFF01 : Word).extractLsb' 0 8 = (0x00000001 : Word).extractLsb' 0 8 := by decide

theorem witness_DroppedWritesChangeNothing :
    (({ running .bhRead 2 [] with host := [.write 0 2] }).host = .write 0x00 2 :: [] ∧
      (running .bhRead 2 []).busy = true) ∧
    (({ asked [.write 4 1] with bhReady := true }).host = .write 0x04 1 :: [] ∧
      ({ asked [.write 4 1] with bhReady := true }).bhReady = true) ∧
    (({ running .bmpInit 0 [] with host := [.write 5 1] }).host = .write 0x05 1 :: [] ∧
      (running .bmpInit 0 []).busy = true) ∧
    ((asked [.write 0x3F 1]).host = .write 0x3F 1 :: [] ∧
      (0x3F : HostIdx) ≠ 0x00#6 ∧ (0x3F : HostIdx) ≠ 0x04#6 ∧ (0x3F : HostIdx) ≠ 0x05#6) := by decide

theorem witness_RegisterMap :
    errCode ({ asked [] with errInfo := 0x21 }).errInfo = 1#3 ∧ (built .bmpReadT 0 []).bmpReady = true ∧
      (∀ i : HostIdx, i ∈ [0x06#6, 0x07#6, 0x0D#6, 0x0F#6, 0x1C#6, 0x3F#6] →
        i = 0x06#6 ∨ i = 0x07#6 ∨ (0x0D#6 ≤ i ∧ i ≤ 0x0F#6) ∨ 0x1C#6 ≤ i) ∧
      (asked [.read 0x1B]).host = .read 0x1B :: [] := by decide

theorem witness_StatusLayout : 5 ≤ 5 ∧ 5 ≤ 31 := by decide

theorem witness_CoefficientWindow :
    (built .bmpReadT 0 []).bmpReady = true ∧ ((3 : Fin 12) = 0 ∨ (3 : Fin 12) = 3) ∧
      (11 : Fin 12) ≠ 0 ∧ (11 : Fin 12) ≠ 3 := by decide

theorem witness_ConfigurationLock :
    ((asked [.write 4 3]).host = .write 0x04 3 :: [] ∧ (asked [.write 4 3]).bhReady = false) ∧
    (({ asked [.write 5 3] with bmpReady := true }).host = .write 0x05 3 :: [] ∧
      ({ asked [.write 5 3] with bmpReady := true }).bmpReady = true) ∧
    after (fun s => (s.bhReady, s.bmpReady)) (step (built .bmpReset 1 [])) = some (true, true) := by decide
theorem witness_ConfigurationLock_noReset : ¬ resetNext (built .bmpReset 1 []) := by
  rintro ⟨rest, h⟩
  cases h

theorem witness_ResetAtAnyTime :
    ({ built .bmpReadP 1 [] with host := [.rst] }).host = .rst :: [] ∧
      ({ built .bmpReadP 1 [.never] with inflight := some (.writeRead 0x76 [0xF7] 3) }).answers = .never :: [] ∧
      ({ built .bmpReadP 1 [.never] with inflight := some (.writeRead 0x76 [0xF7] 3) }).inflight =
        some (.writeRead 0x76 [0xF7] 3) ∧ (built .bmpReadP 1 [.never]).inflight = none := by decide

theorem witness_CommandSelection :
    (0b00#2 ≠ 0b10#2) ∧ (0b01#2 ≠ 0b10#2) ∧ (0b11#2 ≠ 0b10#2) := by decide

theorem witness_WireCommandsComplete :
    ((0xE : Word).getLsbD 0 = false ∧ (0xF : Word).getLsbD 0 = true) ∧
    ((Instr.bhPowerDown, 0x00#8, 1) ∈ [(Instr.bhPowerDown, 0x00#8, 1), (.bhOtLow, 0x23#8, 24)]) ∧
      (running .bhInit 0 [.ok []]).answers = .ok [] :: [] := by decide

theorem witness_WireCommandsFail :
    ((running .bhInit 0 [.err 3]).seq.op = 0x1#4 ∧ (running .bhInit 0 [.err 3]).answers = .err 3 :: []) ∧
      ((running .bhRead 0 [.err 3]).seq.op = 0x2#4 ∧
        (running .bhRead 0 [.err 3]).answers = .err 3 :: []) := by decide

theorem witness_BhInitSteps :
    ((built .bhInit 0 []).at .bhInit 0 ∧ (built .bhInit 0 []).bhReady = true) ∧
    ((running .bhInit 0 []).at .bhInit 0 ∧ (running .bhInit 0 []).bhReady = false ∧
      bhRes ({ running .bhInit 0 [] with bhCfg := 4 }).bhCfg = 0b10#2) ∧
    (cmdSelect (bhOneTime oneTimeLow) (bhRes oneTimeLow) = some .powerDown ∧
      (running .bhInit 0 [.ok []]).answers = .ok [] :: [] ∧
      (running .bhInit 0 [.err 1]).answers = .err 1 :: []) ∧
    ((running .bhInit 1 []).at .bhInit 1 ∧ settleMs ({ running .bhInit 1 [] with cLat := 0x13 }).cLat = some 24 ∧
      24 ≤ ({ running .bhInit 1 [] with timer := 23 }).timer + (running .bhInit 1 []).ticks.headD 1) ∧
    (running .bhInit 2 []).at .bhInit 2 := by
  unfold State.at
  decide

theorem witness_BhInitRunsToReady :
    (running .bhInit 0 [.ok []]).host = [] ∧ (running .bhInit 0 [.ok []]).at .bhInit 0 ∧
      (running .bhInit 0 [.ok []]).bhReady = false ∧
      cmdSelect (bhOneTime 0) (bhRes 0) = some .contHigh ∧ settleMs WireCmd.contHigh.byte = some 180 ∧
      (running .bhInit 0 [.ok []]).answers = .ok [] :: [] ∧
      ({ running .bhInit 0 [.ok []] with ticks := [180] }).ticks = 180 :: [] ∧ 180 ≤ 180 := by
  unfold State.at
  decide

theorem witness_BhReadSteps :
    ((running .bhRead 0 []).at .bhRead 0 ∧ (running .bhRead 0 []).bhReady = false) ∧
    ((built .bhRead 0 []).bhReady = true ∧ bhOneTime (built .bhRead 0 []).bhCfg = false) ∧
    (bhOneTime oneTimeLow = true ∧ trigSelect (bhRes oneTimeLow) = some .otLow ∧
      (built .bhRead 0 [.ok []]).answers = .ok [] :: [] ∧ (built .bhRead 0 [.err 1]).answers = .err 1 :: []) ∧
    ((built .bhRead 1 []).at .bhRead 1 ∧ settleMs ({ built .bhRead 1 [] with cLat := 0x23 }).cLat = some 24 ∧
      24 ≤ (built .bhRead 1 []).timer + ({ built .bhRead 1 [] with ticks := [24] }).ticks.headD 1) ∧
    ((built .bhRead 2 [.ok [1, 0]]).at .bhRead 2 ∧
      (built .bhRead 2 [.ok [1, 0]]).answers = .ok [1, 0] :: [] ∧
      (built .bhRead 2 [.err 1]).answers = .err 1 :: []) ∧
    (built .bhRead 3 []).at .bhRead 3 := by
  unfold State.at
  decide

theorem witness_BhReadRunsToLux :
    ((built .bhRead 0 [.ok [1, 0]]).host = [] ∧ (built .bhRead 0 [.ok [1, 0]]).at .bhRead 0 ∧
      (built .bhRead 0 [.ok [1, 0]]).bhReady = true ∧ bhOneTime (built .bhRead 0 []).bhCfg = false ∧
      (built .bhRead 0 [.ok [1, 0]]).answers = .ok [1, 0] :: []) ∧
    (bhOneTime oneTimeLow = true ∧ trigSelect (bhRes oneTimeLow) = some .otLow ∧
      settleMs WireCmd.otLow.byte = some 24 ∧
      (built .bhRead 0 [.ok [], .ok [0xFF, 0xFF]]).answers = .ok [] :: .ok [0xFF, 0xFF] :: [] ∧
      ({ built .bhRead 0 [] with ticks := [24, 1] }).ticks = 24 :: [1] ∧ 24 ≤ 24) := by
  unfold State.at
  decide

theorem witness_CalibrationParse :
    blockV20.length = 24 ∧ blockV20.getD 2 0 = 0x43 ∧ blockV20.getD 3 0 = 0x67 ∧ blockV20.getD 4 0 = 0x18 ∧
      blockV20.getD 5 0 = 0xFC := by decide

theorem witness_ControlAndConfigBytes : Params.decided.filterShift = 5 := by decide

theorem witness_RegisterAccessesComplete :
    ((0x1FFE : Word).getLsbD 0 = false ∧ (0x1FFF : Word).getLsbD 0 = true) ∧
    ((running .bmpInit 0 [.ok blockV20]).answers = .ok blockV20 :: [] ∧ blockV20.length = 24) ∧
      (built .bmpReadId 0 [.ok [0x58]]).answers = .ok [0x58] :: [] ∧
      (built .bmpReadP 1 [.ok [0x65, 0x5A, 0xC0]]).answers = .ok [0x65, 0x5A, 0xC0] :: [] ∧
      (built .bmpReset 0 [.ok []]).answers = .ok [] :: [] := by decide

theorem witness_BmpInitSteps :
    ((built .bmpInit 0 []).at .bmpInit 0 ∧ (built .bmpInit 0 []).bmpReady = true) ∧
    ((running .bmpInit 0 [.ok blockV20]).at .bmpInit 0 ∧
      (running .bmpInit 0 [.ok blockV20]).bmpReady = false ∧
      (running .bmpInit 0 [.ok blockV20]).answers = .ok blockV20 :: [] ∧ blockV20.length = 24) ∧
    ((running .bmpInit 1 []).at .bmpInit 1 ∧
      2 ≤ ({ running .bmpInit 1 [] with timer := 1 }).timer + (running .bmpInit 1 []).ticks.headD 1) ∧
    ((running .bmpInit 2 [.ok []]).at .bmpInit 2 ∧ (running .bmpInit 3 [.ok []]).at .bmpInit 3 ∧
      (running .bmpInit 3 [.ok []]).answers = .ok [] :: []) ∧
    (running .bmpInit 4 []).at .bmpInit 4 ∧
    (stepTxn (running .bmpInit 0 [.err 1]) = some (.writeRead 0x76 [0x88#8] 24) ∧
      stepTxn (running .bmpInit 2 [.err 1]) = some (.write 0x76 [0xF4#8, 0x03#8]) ∧
      stepTxn (running .bmpInit 3 [.err 1]) = some (.write 0x76 [0xF5#8, 0x00#8]) ∧
      (running .bmpInit 3 [.err 1]).answers = .err 1 :: []) := by
  unfold State.at
  decide

theorem witness_BmpInitRunsToReady :
    (running .bmpInit 0 [.ok blockV20, .ok [], .ok []]).host = [] ∧
      (running .bmpInit 0 [.ok blockV20, .ok [], .ok []]).at .bmpInit 0 ∧
      (running .bmpInit 0 [.ok blockV20, .ok [], .ok []]).bmpReady = false ∧ blockV20.length = 24 ∧
      (running .bmpInit 0 [.ok blockV20, .ok [], .ok []]).answers =
        .ok blockV20 :: .ok [] :: .ok [] :: [] ∧
      ({ running .bmpInit 0 [] with ticks := [2] }).ticks = 2 :: [] ∧ 2 ≤ 2 := by
  unfold State.at
  decide

/-- BMP_READ_T at its last step with P2's frame. -/
def tempP2 : State := { built .bmpReadT 1 [] with adcTBuf := ⟨0x7E, 0xED, 0x00⟩, x := coefV20 }

theorem witness_BmpReadTSteps :
    ((running .bmpReadT 0 []).at .bmpReadT 0 ∧ (running .bmpReadT 0 []).bmpReady = false) ∧
    ((built .bmpReadT 0 [.ok [1, 2, 3]]).at .bmpReadT 0 ∧ (built .bmpReadT 0 []).bmpReady = true ∧
      (built .bmpReadT 0 [.ok [1, 2, 3]]).answers = .ok [1, 2, 3] :: [] ∧
      (built .bmpReadT 0 [.err 1]).answers = .err 1 :: []) ∧
    ((stateV105 .wrap).at .bmpReadT 1 ∧
      compT (stateV105 .wrap).params.ovfMode (adcUnpack (stateV105 .wrap).adcTBuf).toNat
        (stateV105 .wrap).x.digT1.toNat (stateV105 .wrap).x.digT2.toInt (stateV105 .wrap).x.digT3.toInt =
        some (-80, -2)) ∧
    ((stateV105 .fault).at .bmpReadT 1 ∧
      compT (stateV105 .fault).params.ovfMode (adcUnpack (stateV105 .fault).adcTBuf).toNat
        (stateV105 .fault).x.digT1.toNat (stateV105 .fault).x.digT2.toInt
        (stateV105 .fault).x.digT3.toInt = none) ∧
    (tempP2.at .bmpReadT 1 ∧ tempP2.adcTBuf = ⟨0x7E, 0xED, 0x00⟩ ∧ tempP2.x.digT1.toNat = 27504 ∧
      tempP2.x.digT2.toInt = 26435 ∧ tempP2.x.digT3.toInt = -1000) := by
  unfold State.at
  decide

theorem witness_BmpReadTRunsToTemp :
    (built .bmpReadT 0 [.ok [0x7E, 0xED, 0]]).host = [] ∧
      (built .bmpReadT 0 [.ok [0x7E, 0xED, 0]]).at .bmpReadT 0 ∧
      (built .bmpReadT 0 [.ok [0x7E, 0xED, 0]]).bmpReady = true ∧
      (built .bmpReadT 0 [.ok [0x7E, 0xED, 0]]).params.ovfMode = .wrap ∧
      (built .bmpReadT 0 [.ok [0x7E, 0xED, 0]]).answers = .ok [0x7E, 0xED, 0] :: [] := by
  unfold State.at
  decide

/-- BMP_READ_P at its last step with V80's coefficients, under `fault`: CompP overflows, CompT does not. -/
def pressV80 : State :=
  { built .bmpReadP 2 [] with
    params := { Params.decided with ovfMode := .fault },
    x := { Calib.zero with digP1 := 1, digP4 := 0x8000 } }

/-- BMP_READ_P at its last step with P2's frames. -/
def pressP2 : State :=
  { built .bmpReadP 2 [] with
    adcTBuf := ⟨0x7E, 0xED, 0x00⟩, adcPBuf := ⟨0x65, 0x5A, 0xC0⟩, x := coefV20 }

theorem witness_BmpReadPSteps :
    ((running .bmpReadP 0 []).at .bmpReadP 0 ∧ (running .bmpReadP 0 []).bmpReady = false) ∧
    ((built .bmpReadP 0 [.ok [1, 2, 3]]).at .bmpReadP 0 ∧
      (built .bmpReadP 0 [.ok [1, 2, 3]]).bmpReady = true ∧
      (built .bmpReadP 0 [.ok [1, 2, 3]]).answers = .ok [1, 2, 3] :: [] ∧
      (built .bmpReadP 0 [.err 1]).answers = .err 1 :: []) ∧
    ((built .bmpReadP 1 [.ok [1, 2, 3]]).at .bmpReadP 1 ∧
      (built .bmpReadP 1 [.ok [1, 2, 3]]).answers = .ok [1, 2, 3] :: [] ∧
      (built .bmpReadP 1 [.err 1]).answers = .err 1 :: []) ∧
    (pressP2.at .bmpReadP 2 ∧
      compT pressP2.params.ovfMode (adcUnpack pressP2.adcTBuf).toNat pressP2.x.digT1.toNat
        pressP2.x.digT2.toInt pressP2.x.digT3.toInt = some (128422, 2508) ∧
      compP pressP2.params.ovfMode (adcUnpack pressP2.adcPBuf).toNat 128422 pressP2.x.pCoefs =
        some 25767233) ∧
    (pressV80.at .bmpReadP 2 ∧
      compT pressV80.params.ovfMode (adcUnpack pressV80.adcTBuf).toNat pressV80.x.digT1.toNat
        pressV80.x.digT2.toInt pressV80.x.digT3.toInt = some (0, 0) ∧
      compP pressV80.params.ovfMode (adcUnpack pressV80.adcPBuf).toNat 0 pressV80.x.pCoefs = none) ∧
    (pressP2.adcTBuf = ⟨0x7E, 0xED, 0x00⟩ ∧ pressP2.adcPBuf = ⟨0x65, 0x5A, 0xC0⟩ ∧
      pressP2.x.digT1.toNat = 27504 ∧ pressP2.x.digT2.toInt = 26435 ∧ pressP2.x.digT3.toInt = -1000 ∧
      pressP2.x.pCoefs = refP) := by
  unfold State.at
  decide

theorem witness_BmpReadPRunsToPress :
    (built .bmpReadP 0 [.ok [1, 2, 3], .ok [4, 5, 6]]).host = [] ∧
      (built .bmpReadP 0 [.ok [1, 2, 3], .ok [4, 5, 6]]).at .bmpReadP 0 ∧
      (built .bmpReadP 0 [.ok [1, 2, 3], .ok [4, 5, 6]]).bmpReady = true ∧
      (built .bmpReadP 0 [.ok [1, 2, 3], .ok [4, 5, 6]]).params.ovfMode = .wrap ∧
      (built .bmpReadP 0 [.ok [1, 2, 3], .ok [4, 5, 6]]).answers =
        .ok [1, 2, 3] :: .ok [4, 5, 6] :: [] := by
  unfold State.at
  decide

theorem witness_AuxiliarySteps :
    (∀ i, i ∈ [Instr.bmpReadId, .bmpReadStatus, .bmpReset] →
      (running i 0 []).at i 0 ∧ (running i 0 []).bmpReady = false ∧ (built i 0 [.err 1]).bmpReady = true ∧
        (built i 0 [.err 1]).at i 0 ∧ (built i 0 [.err 1]).answers = .err 1 :: [] ∧ (built i 1 []).at i 1) ∧
    (stepTxn (built .bmpReadId 0 [.err 1]) = some (.writeRead 0x76 [0xD0#8] 1) ∧
      stepTxn (built .bmpReadStatus 0 [.err 1]) = some (.writeRead 0x76 [0xF3#8] 1) ∧
      stepTxn (built .bmpReset 0 [.err 1]) = some (.write 0x76 [0xE0#8, 0xB7#8])) ∧
    (built .bmpReadId 0 [.ok [0x58]]).answers = .ok [0x58] :: [] ∧
    (built .bmpReset 0 [.ok []]).answers = .ok [] :: [] := by
  unfold State.at
  decide

theorem witness_AuxiliaryCommandsRun :
    (built .bmpReadId 0 [.ok [0x58]]).host = [] ∧ (built .bmpReadId 0 [.ok [0x58]]).bmpReady = true ∧
      (built .bmpReadId 0 [.ok [0x58]]).at .bmpReadId 0 ∧
      (built .bmpReadId 0 [.ok [0x58]]).answers = .ok [0x58] :: [] ∧
      (built .bmpReadStatus 0 [.ok [0x09]]).at .bmpReadStatus 0 ∧
      (built .bmpReset 0 [.ok []]).at .bmpReset 0 ∧
      (built .bmpReset 0 [.ok []]).answers = .ok [] :: [] := by
  unfold State.at
  decide

theorem witness_WrapIsTheResidue :
    -(2 ^ (32 - 1)) ≤ (-2147483648 : Int) ∧ (-2147483648 : Int) < 2 ^ (32 - 1) ∧
      (2 : Int) ^ 32 ∣ 2147483648 - (-2147483648) ∧ -(2 ^ (64 - 1)) ≤ (9223372036854775807 : Int) ∧
      (9223372036854775807 : Int) < 2 ^ (64 - 1) := by decide

theorem witness_FixedWidthOperations :
    fits 64 (-(2 ^ 63)) = true ∧ fits 64 (-2) = true ∧ (-2 : Int) ≠ 0 ∧
      ¬ ((-(2 ^ 63) : Int) = -(2 ^ 63) ∧ (-2 : Int) = -1) := by decide
theorem witness_FixedWidthOperations_op :
    ((fun m => subN m 32 1 2) = fun m => subN m 32 1 2) ∧ (-1 : Int) = 1 - 2 := ⟨rfl, rfl⟩

theorem witness_TemperatureIsExactInsideNoOvfT :
    inRangeT 519888 refT1 refT2 refT3 ∧ noOvfT 519888 refT1 refT2 refT3 = true := by
  unfold inRangeT
  decide

theorem witness_TemperatureOverflow :
    inRangeT 1048575 0 32767 0 ∧ noOvfT 1048575 0 32767 0 = false ∧ inRangeT 0 65535 (-32768) (-32768) := by
  unfold inRangeT
  decide

/-- Coefficients for which `q6 * dig_P1` overflows (V78). -/
def coefV78 : PCoefs := ⟨65535, 32767, 32767, 0, 0, 0, 0, 0, 0⟩

/-- V64: a denominator of zero with `dig_P1` not zero. -/
def coefV64 : PCoefs := ⟨1, -32768, 0, 7, 7, 7, 7, 7, 7⟩

theorem witness_PressureOverflow_bare :
    (noOvfPBare 415148 128422 refP = true ∧ (exactDen 128422 refP).den = 597560748) ∧
      (coefV64.inRange ∧ noOvfPBare 0 1176576 coefV64 = true ∧ (exactDen 1176576 coefV64).den = 0) ∧
      (-(2 ^ 31) ≤ (-2147483648 : Int) ∧ (2147483647 : Int) < 2 ^ 31 ∧
        noOvfPBare 0 2147483647 ⟨0, 0, 0, 0, 0, 32767, 0, 0, 0⟩ = false) := by
  unfold PCoefs.inRange isS16
  decide

theorem witness_PressureOverflow :
    (refP.inRange ∧ noOvfP 415148 128422 refP = true) ∧
      (coefV78.inRange ∧ (1179646 : Int) ≤ 1179646 ∧ noOvfP 0 1179646 coefV78 = false) ∧
      (-1179648 : Int) ≤ -1179648 ∧ (1048575 : Int) < 2 ^ 20 := by
  unfold PCoefs.inRange isS16
  decide

theorem witness_ZeroDenominatorGivesZero :
    (tempsDen .fault 1176576 coefV64).map (fun a => decide (0 ≤ a.q7 ∧ a.q7 < 2 ^ 33)) = some true ∧
      ({ refP with p1 := 0 } : PCoefs).inRange ∧ ({ refP with p1 := 0 } : PCoefs).p1 = 0 ∧
      ({ pressP2 with x := { coefV20 with digP1 := 0 } }).at .bmpReadP 2 ∧
      pressP2.params.ovfMode = .wrap ∧
      ({ pressP2 with x := { coefV20 with digP1 := 0 } }).x.digP1 = 0 := by
  unfold PCoefs.inRange isS16 State.at
  decide

theorem witness_ReferenceSetNeverOverflows :
    (0 : Int) ≤ 1048575 ∧ (1048575 : Int) < 2 ^ 20 ∧ (0 : Int) ≤ 0 ∧ (0 : Int) < 2 ^ 20 := by decide

theorem witness_ConversionsAreCorrectlyRounded :
    FloatFormat.binary32.Admitted ∧ FloatFormat.binary64.Admitted ∧
      holdsIn .binary32 ⟨false, 2 ^ 24 - 1, 0⟩ := by
  unfold holdsIn
  decide

theorem witness_RaiseEffect :
    (running .bmpInit 0 []).seq.op = 0x4#4 ∧ (built .bmpInit 0 []).bmpReady = true ∧
      (running .bhInit 0 []).seq.op ≠ 0x4#4 ∧ (Exc.arithOverflow).code = 6 ∧
      (Exc.transportFailure 9).code = 1 := by decide

theorem witness_ArithOverflowOnlyUnderFault :
    (stateV105 .wrap).params.ovfMode = .wrap ∧ errCode (stateV105 .wrap).errInfo ≠ 6#3 ∧
      after (fun s => errCode s.errInfo) (step (stateV105 .wrap)) = some 0#3 := by decide

theorem witness_UnansweredTransactionHangs :
    ((built .bmpReadP 1 []).host = [] ∧ Unanswered (built .bmpReadP 1 []) ∧
      stepTxn (built .bmpReadP 1 []) = some (.writeRead 0x76 [0xF7#8] 3)) ∧
    Unanswered (built .bmpReadP 1 [.never]) ∧
    (({ built .bmpReadP 1 [.never, .err 1] with host := [.pass, .rst] }).host = .pass :: .rst :: [] ∧
      (built .bmpReadP 1 [.never, .err 1]).answers = .never :: [.err 1] ∧
      stepTxn { built .bmpReadP 1 [.never, .err 1] with host := [.pass, .rst] } =
        some (.writeRead 0x76 [0xF7#8] 3)) :=
  ⟨⟨rfl, .inl rfl, by decide⟩, .inr ⟨[], rfl⟩, rfl, rfl, by decide⟩

theorem witness_DelayIsALowerBoundAndEnds :
    ((running .bhInit 1 []).host = [] ∧ (running .bhInit 1 []).at .bhInit 1 ∧
      settleMs ({ running .bhInit 1 [] with cLat := 0x10 }).cLat = some 180 ∧
      ({ running .bhInit 1 [] with timer := 178 }).timer + (running .bhInit 1 []).ticks.headD 1 < 180) ∧
    ((running .bmpInit 1 []).at .bmpInit 1 ∧ (running .bmpInit 1 []).host = []) := by
  unfold State.at
  decide

/-- BH_INIT waiting for the settle delay of BH_CONT_UHIGH, as its write step left it. -/
def settling : State :=
  { running .bhInit 1 [] with
    bhCfg := 2, cLat := 0x11, trace := [.txn (.write 0x23 [0x11]) (.ok []), .reset none] }

theorem settling_regInv : RegInv settling := by
  refine ⟨.inr ⟨.bhInit, 1, rfl, by decide, rfl, rfl⟩, ?_, ?_, ?_, ?_, ?_⟩
  · unfold BusyMatchesSeq
    decide
  · unfold ErrMatches
    decide
  · unfold ReservedZero
    decide
  · unfold Admitted State.at
    decide
  · unfold LatchMatches State.at
    decide

theorem witness_StepKeepsRegInv :
    RegInv settling ∧ ∃ s', step settling = .next s' ∧ s'.seq = ⟨1, 1⟩ ∧ s'.timer = 1 :=
  ⟨settling_regInv, _, rfl, rfl, rfl⟩

theorem witness_RegInvExcludesFaults : RegInv settling := settling_regInv

/-- BMP_READ_P after its temperature read, on a driver constructed with V20's block. -/
def pairing : State :=
  { built .bmpReadP 1 [.ok [1, 2, 3]] with
    x := coefV20,
    trace := .txn (.writeRead 0x76 [0xFA] 3) (.ok [0x7E, 0xED, 0]) ::
      (initEvents (running .bmpInit 4 []) blockV20 ++ [.reset none]) }

theorem witness_StepKeepsTraceListed :
    TraceListed pairing ∧ ∃ s', step pairing = .next s' ∧ s'.trace.length = 7 := by
  refine ⟨⟨?_, by intro t ht; cases ht⟩, _, rfl, rfl⟩
  intro e he
  rcases List.mem_cons.1 he with rfl | he
  · exact ⟨by decide, by decide⟩
  · simp only [initEvents, List.mem_append, List.mem_cons, List.not_mem_nil, or_false] at he
    rcases he with (rfl | rfl | rfl | rfl) | rfl
    · exact ⟨by decide, by decide⟩
    · exact ⟨by decide, by decide⟩
    · trivial
    · exact ⟨by decide, by decide⟩
    · trivial

theorem witness_StepKeepsSettleInv :
    SettleInv settling ∧ ∃ s', step settling = .next s' ∧ s'.timer = 1 := by
  refine ⟨⟨?_, ⟨?_, trivial⟩, ?_⟩, _, rfl, rfl⟩
  · unfold BusyMatchesSeq
    decide
  · rintro c ⟨a, -, h⟩
    cases h
  · rintro e rest c h ⟨a, -, rfl⟩
    cases h
    exact ⟨.inl ⟨rfl, rfl⟩, rfl⟩

theorem witness_StepKeepsPairingInv :
    PairingInv pairing ∧ pairing.at .bmpReadP 1 ∧ ∃ s', step pairing = .next s' ∧ s'.seq = ⟨6, 2⟩ := by
  have ht : ∀ e, IsPressRead e → e ≠ .reset none := by
    rintro e ⟨a, b, rfl⟩ h
    cases h
  refine ⟨⟨⟨?_, ?_, ?_, ?_, ?_, ?_⟩, fun _ => ⟨_, _, rfl, _, _, rfl⟩⟩, ⟨rfl, rfl⟩, _, rfl, rfl⟩
  · rintro ⟨a, b, h⟩
    cases h
  · rintro ⟨a, b, h⟩
    cases h
  · rintro ⟨a, b, h⟩
    cases h
  · rintro ⟨a, b, h⟩
    cases h
  · rintro ⟨a, b, h⟩
    cases h
  · rintro ⟨a, b, h⟩
    cases h

theorem witness_StepKeepsEvidenceInv :
    EvidenceInv pairing ∧ pairing.bmpReady = true ∧ ∃ s', step pairing = .next s' ∧ s'.bmpReady = true := by
  refine ⟨⟨?_, ?_, ?_⟩, rfl, _, rfl, rfl⟩
  · unfold BusyMatchesSeq
    decide
  · intro _
    exact ⟨blockV20, [.txn (.writeRead 0x76 [0xFA] 3) (.ok [0x7E, 0xED, 0])], [.reset none], rfl, rfl, rfl,
      rfl⟩
  · rintro j - - h
    exact absurd h.1 (by decide)

theorem witness_CoefficientsChangeOnlyInInit :
    ∃ s', step (running .bmpInit 0 [.ok blockV20]) = .next s' ∧
      s'.x ≠ (running .bmpInit 0 [.ok blockV20]).x := by
  refine ⟨_, rfl, ?_⟩
  decide

/-- BH_READ at its last step, a light value received. -/
def lightDone : State := { built .bhRead 3 [] with bhBuf := ⟨0x12, 0x34⟩ }

theorem witness_ResultsChangeOnlyOnSuccess :
    RegInv lightDone ∧ ¬ resetNext lightDone ∧
      ∃ s', step lightDone = .next s' ∧ resultsOf s' ≠ resultsOf lightDone := by
  refine ⟨⟨.inr ⟨.bhRead, 3, rfl, by decide, rfl, rfl⟩, ?_, ?_, ?_, ?_, ?_⟩, ?_, _, rfl, by decide⟩
  · unfold BusyMatchesSeq
    decide
  · unfold ErrMatches
    decide
  · unfold ReservedZero
    decide
  · unfold Admitted State.at
    decide
  · unfold LatchMatches State.at
    decide
  · rintro ⟨rest, h⟩
    cases h

/-- One step for each clause: BUSY, ERR, BH_READY, BMP_READY and DONE set; BUSY, DONE, ERR and the ready
flags cleared. -/
theorem witness_FlagsChangeOnlyAsListed :
    ((asked [.write 0 2]).busy = false ∧ after (·.busy) (step (asked [.write 0 2])) = some true) ∧
      ((running .bhRead 0 []).err = false ∧ after (·.err) (step (running .bhRead 0 [])) = some true) ∧
      ((running .bhInit 2 []).bhReady = false ∧
        after (·.bhReady) (step (running .bhInit 2 [])) = some true) ∧
      ((running .bmpInit 4 []).bmpReady = false ∧
        after (·.bmpReady) (step (running .bmpInit 4 [])) = some true) ∧
      ((running .bmpReset 1 []).done = false ∧ after (·.done) (step (running .bmpReset 1 [])) = some true) ∧
      ((running .bmpReset 1 []).busy = true ∧ after (·.busy) (step (running .bmpReset 1 [])) = some false) ∧
      after (fun s => (s.done, s.err)) (step { asked [.write 0 2] with done := true, err := true }) =
        some (false, false) ∧
      after (fun s => (s.bhReady, s.bmpReady)) (step { built .bmpReset 1 [] with host := [.rst] }) =
        some (false, false) := by decide

theorem witness_IdleIsSilent :
    (asked [.rst]).seq = Seq.idle ∧ after (·.trace) (step (asked [.rst])) = some [.reset none] ∧
      (asked [.read 1]).seq = Seq.idle ∧ after (·.trace) (step (asked [.read 1])) = some [] := by decide

end Sys2Proof.Tests
end

section
/-! PROOFS. What a host read or write does at each index, said once: the registers that ignore writes, the
two configuration registers with their locks (10_state R28 to R42), and the layout of STATUS (R30). -/

namespace Sys2Proof.Machine

/-- A host write that stands next is the whole step (log 5). -/
theorem step_write {s : State} {i : HostIdx} {v : Word} {rest : List HostAct}
    (h : s.host = .write i v :: rest) : step s = .next (hostWrite i v { s with host := rest }) := by
  simp [step, turn, h]

/-- Only CMD, BH_CFG and BMP_CFG take writes (R41). -/
theorem hostWrite_readOnly {i : HostIdx} (hcmd : regAt i ≠ some .cmd) (hbh : regAt i ≠ some .bhCfg)
    (hbmp : regAt i ≠ some .bmpCfg) (v : Word) (s : State) : hostWrite i v s = s := by
  rcases hostWrite_cases i v s with h | ⟨h, -⟩ | ⟨h, -⟩ | ⟨h, -⟩
  · exact h
  · exact absurd h hcmd
  · exact absurd h hbh
  · exact absurd h hbmp

/-- BH_CFG keeps its four bits of the word written, unless it is locked (R33, R42). -/
theorem hostWrite_bhCfg (v : Word) (s : State) :
    hostWrite 0x04 v s =
      if s.bhReady = true ∨ s.busy = true then s else { s with bhCfg := v &&& 0x0000000F } := by
  simp [hostWrite, regAt, bhCfgLocked, bhCfgMask]

/-- BMP_CFG keeps its thirteen bits of the word written, unless it is locked (R34, R42). -/
theorem hostWrite_bmpCfg (v : Word) (s : State) :
    hostWrite 0x05 v s =
      if s.bmpReady = true ∨ s.busy = true then s else { s with bmpCfg := v &&& 0x00001FFF } := by
  simp [hostWrite, regAt, bmpCfgLocked, bmpCfgMask]

/-- Index `0x10 + i` is DIG`i` (R28). -/
theorem regAt_dig (i : Fin 12) : regAt (BitVec.ofNat 6 (16 + i.val)) = some (.dig i) := by
  revert i; decide

/-- While `BMP_READY = 1` DIG`i` reads as the extended coefficient (R40). -/
theorem hostView_dig {s : State} (h : s.bmpReady = true) (i : Fin 12) :
    hostView s (BitVec.ofNat 6 (16 + i.val)) = digWord s.x i := by
  simp [hostView, regAt_dig, regView, h]

/-- The unsigned coefficients are zero-extended (R40). -/
theorem digWord_unsigned {i : Fin 12} (h : i = 0 ∨ i = 3) (x : Calib) :
    digWord x i = (x.get i).zeroExtend 32 := by
  rcases h with rfl | rfl <;> simp [digWord]

/-- The signed coefficients are sign-extended (R40). -/
theorem digWord_signed {i : Fin 12} (h0 : i ≠ 0) (h3 : i ≠ 3) (x : Calib) :
    digWord x i = (x.get i).signExtend 32 :=
  if_neg (by omega)

/-- Index `0x01` is STATUS (R28). -/
theorem hostView_status (s : State) : hostView s 0x01 = statusWord s := rfl

/-- A flag placed at bit `n` is there and nowhere else. -/
theorem getLsbD_flagAt (b : Bool) {n k : Nat} (hn : n < 32) :
    (flagAt b n).getLsbD k = (decide (k = n) && b) := by
  rcases lt_trichotomy k n with hlt | rfl | hgt
  · simp [flagAt, hlt, hlt.ne]
  · simp [flagAt, hn]
  · simp [flagAt, hgt.ne', show k - n ≠ 0 by omega]

/-- STATUS bit by bit (R30). -/
theorem getLsbD_statusWord (s : State) (k : Nat) :
    (statusWord s).getLsbD k =
      ((decide (k = 0) && s.busy) || (decide (k = 1) && s.done) || (decide (k = 2) && s.err) ||
        (decide (k = 3) && s.bhReady) || (decide (k = 4) && s.bmpReady)) := by
  simp [statusWord, getLsbD_flagAt]

end Sys2Proof.Machine
end

section
/-! PROOFS. The ready flags: only RST clears them (10_state R27, R42). -/

namespace Sys2Proof.Machine

/-- No step of a command clears a ready flag: an exception keeps both (R248), and only the last steps of
the two constructions touch them, to set them. -/
theorem StepEffect.keeps_ready {s t : State} (h : StepEffect s t) :
    (s.bhReady = true → t.bhReady = true) ∧ (s.bmpReady = true → t.bmpReady = true) := by
  cases h
  case bhReady => exact ⟨fun _ => rfl, id⟩
  case bmpReady => exact ⟨id, fun _ => rfl⟩
  all_goals simp

/-- A host's turn other than RST keeps both ready flags. -/
theorem turn_host_ready {s t : State} (h : turn s = .host t) (hrst : ¬ resetNext s) :
    t.bhReady = s.bhReady ∧ t.bmpReady = s.bmpReady := by
  rcases turn_host h with ⟨i, v, rest, -, rfl⟩ | ⟨i, rest, -, rfl⟩ | ⟨rest, hh, -⟩ | ⟨rest, -, -, rfl⟩
  · obtain ⟨-, -, -, -, -, -, hbh, hbmp, -⟩ := hostWrite_frame i v { s with host := rest }
    exact ⟨hbh, hbmp⟩
  · exact ⟨rfl, rfl⟩
  · exact absurd ⟨rest, hh⟩ hrst
  · exact ⟨rfl, rfl⟩

/-- Every step other than a reset leaves a set ready flag set (R42). -/
theorem step_keeps_ready {s t : State} (h : step s = .next t) (hrst : ¬ resetNext s) :
    (s.bhReady = true → t.bhReady = true) ∧ (s.bmpReady = true → t.bmpReady = true) := by
  rcases step_next h with ht | ⟨l, rfl, -⟩ | ⟨l, -, -, he⟩
  · obtain ⟨hbh, hbmp⟩ := turn_host_ready ht hrst
    exact ⟨hbh.trans, hbmp.trans⟩
  · exact ⟨id, id⟩
  · exact he.keeps_ready

end Sys2Proof.Machine
end

section
/-! PROOFS. The statements about the host's registers (10_state R30, R40, R42, R45). -/

open Sys2Proof Sys2Proof.Machine

namespace Sys2Proof.Proofs

/-- Settles O12: the two writes by what a host write does at each index, the ready flags by the case list
of a step. -/
theorem configurationLock : Obligations.ConfigurationLock := by
  refine ⟨fun s v rest h => ?_, fun s v rest h => ?_, fun _ _ => step_keeps_ready⟩
  · rw [step_write h, hostWrite_bhCfg]
  · rw [step_write h, hostWrite_bmpCfg]

/-- Settles O10: the bits by the layout of the status word, the write by what ignores writes. -/
theorem statusLayout : Obligations.StatusLayout := by
  refine ⟨fun s => ?_, rfl, fun s v => hostWrite_readOnly (by decide) (by decide) (by decide) v s⟩
  simp only [hostView_status, getLsbD_statusWord]
  refine ⟨by simp, by simp, by simp, by simp, by simp, fun n hn => ?_⟩
  simp [show n ≠ 0 by omega, show n ≠ 1 by omega, show n ≠ 2 by omega, show n ≠ 3 by omega,
    show n ≠ 4 by omega]

/-- Settles O11: a window reads as the extended coefficient, and extending to 32 bits keeps its value. -/
theorem coefficientWindow : Obligations.CoefficientWindow := by
  refine fun s i => ⟨fun hready => ⟨fun hi => ?_, fun h0 h3 => ?_⟩, fun v => ?_⟩
  · rw [hostView_dig hready, digWord_unsigned hi, BitVec.zeroExtend, BitVec.toNat_setWidth_of_le (by decide)]
  · rw [hostView_dig hready, digWord_signed h0 h3, BitVec.toInt_signExtend_of_le (by decide)]
  · refine hostWrite_readOnly ?_ ?_ ?_ v s <;> simp [regAt_dig]

/-- Settles O13: each value is a field of the reset state. -/
theorem resetState : Obligations.ResetState :=
  ⟨rfl, rfl, rfl, rfl, rfl, rfl, rfl, rfl, rfl, rfl, rfl, rfl⟩

end Sys2Proof.Proofs
end

section
/-! PROOFS. What the packed layouts read as, said once: byte strings as bit strings and as numbers
(20_memory R65 to R67, R161, R162). -/

namespace Sys2Proof.Machine

/-- A bit string as a number: the upper part counts in units of the lower part's size. -/
theorem toNat_append_mul {m n : Nat} (x : BitVec m) (y : BitVec n) :
    (x ++ y).toNat = x.toNat * 2 ^ n + y.toNat := by
  rw [BitVec.toNat_append, ← Nat.shiftLeft_add_eq_or_of_lt y.isLt, Nat.shiftLeft_eq]

/-- The signed reading of a 16-bit register as an offset of its unsigned one (R21, R190). -/
theorem half_toInt (x : Half) :
    x.toInt = if x.toNat < 32768 then (x.toNat : Int) else (x.toNat : Int) - 65536 := by
  rw [BitVec.toInt_eq_toNat_cond]
  split <;> split <;> omega

/-- The light value is the string `b0 ++ b1` (R66, R133). -/
theorem bhDecode_eq_append (b0 b1 : Byte) : bhDecode ⟨b0, b1⟩ = b0 ++ b1 :=
  (BitVec.setWidth_append_eq_shiftLeft_setWidth_or (w'' := 16)).symm.trans (BitVec.setWidth_eq _)

/-- The light value as a number (R66, R133). -/
theorem bhDecode_toNat (b0 b1 : Byte) : (bhDecode ⟨b0, b1⟩).toNat = b0.toNat * 256 + b1.toNat := by
  rw [bhDecode_eq_append]
  exact toNat_append_mul b0 b1

/-- Shifting a byte right by four, inside the wider code, leaves its upper nibble. -/
theorem zeroExtend_shiftRight_four (b : Byte) :
    b.zeroExtend 20 >>> 4 = (b.extractLsb' 4 4).setWidth 20 := by
  apply BitVec.eq_of_toNat_eq
  simp only [BitVec.toNat_ushiftRight, BitVec.toNat_setWidth, BitVec.extractLsb'_toNat,
    Nat.shiftRight_eq_div_pow]
  omega

/-- The ADC code is the string `b0 ++ b1 ++ b2[7:4]` (R67, R162). -/
theorem adcUnpack_eq_append (b0 b1 b2 : Byte) :
    adcUnpack ⟨b0, b1, b2⟩ = b0 ++ b1 ++ b2.extractLsb' 4 4 := by
  have hjoin := BitVec.setWidth_append_append_eq_shiftLeft_setWidth_or (w''' := 20) (b := b0) (b' := b1)
    (b'' := b2.extractLsb' 4 4)
  rw [adcUnpack, zeroExtend_shiftRight_four]
  exact hjoin.symm.trans (BitVec.setWidth_eq _)

/-- The ADC code as a number: the low nibble of the third byte is cut off (R67, R162). -/
theorem adcUnpack_toNat (b0 b1 b2 : Byte) :
    (adcUnpack ⟨b0, b1, b2⟩).toNat = b0.toNat * 4096 + b1.toNat * 16 + b2.toNat / 16 := by
  have hnibble : (b2.extractLsb' 4 4).toNat = b2.toNat / 16 := by
    rw [BitVec.extractLsb'_toNat, Nat.shiftRight_eq_div_pow]
    omega
  rw [adcUnpack_eq_append, toNat_append_mul, toNat_append_mul, hnibble]
  omega

/-- A coefficient is the string of its two bytes, the higher offset first (R65). -/
theorem calField_of_bytes {k : List Byte} {i : Nat} {lo hi : Byte} (hlo : k.getD (2 * i) 0 = lo)
    (hhi : k.getD (2 * i + 1) 0 = hi) : calField k i = hi ++ lo := by
  rw [calField, hlo, hhi]

/-- A coefficient as an unsigned number: the byte at the lower offset is the less significant (R65). -/
theorem calField_toNat (k : List Byte) (i : Nat) :
    (calField k i).toNat = (k.getD (2 * i) 0).toNat + 256 * (k.getD (2 * i + 1) 0).toNat := by
  rw [calField, toNat_append_mul]
  omega

/-- `x[i]` is loaded with coefficient `i` of the block (R161). -/
theorem calParse_get (k : List Byte) (i : Fin 12) : (calParse k).get i = calField k i.val := by
  fin_cases i <;> rfl

/-- The operands that CompP reads of a loaded block: `dig_P1` unsigned, the others signed (R161, R190). -/
theorem calParse_pCoefs (k : List Byte) :
    (calParse k).pCoefs =
      ⟨(calField k 3).toNat, (calField k 4).toInt, (calField k 5).toInt, (calField k 6).toInt,
        (calField k 7).toInt, (calField k 8).toInt, (calField k 9).toInt, (calField k 10).toInt,
        (calField k 11).toInt⟩ := rfl

end Sys2Proof.Machine
end

section
/-! PROOFS. The statements about the packed layouts (20_memory R65 to R67, R161, R162). -/

open Sys2Proof Sys2Proof.Machine

namespace Sys2Proof.Proofs

/-- Settles O24: every register is a field of the block, and each field has its unsigned and its signed
reading. -/
theorem calibrationParse : Obligations.CalibrationParse := by
  refine ⟨fun k i _ => ?_, fun k _ => ?_, by decide, fun k _ h2 h3 h4 h5 => ?_⟩
  · rw [calParse_get, calField_toNat]
  · intro u v
    have hu : ∀ i, (calField k i).toNat = u i := calField_toNat k
    have hv : ∀ i, (calField k i).toInt = v i := fun i => by rw [half_toInt, hu]
    refine ⟨hu 0, hv 1, hv 2, ?_⟩
    simp only [calParse_pCoefs, hu, hv]
  · have hT2 : (calParse k).digT2 = 0x67#8 ++ 0x43#8 := calField_of_bytes (i := 1) h2 h3
    have hT3 : (calParse k).digT3 = 0xFC#8 ++ 0x18#8 := calField_of_bytes (i := 2) h4 h5
    rw [hT2, hT3]
    decide

/-- Settles O17: the decoded value is the string `b0 ++ b1`, read as a number. -/
theorem lightValueIsBigEndian : Obligations.LightValueIsBigEndian :=
  ⟨bhDecode_toNat, by decide, by decide⟩

/-- Settles O25: the code as a string and as a number; the worked examples evaluate. (Protected: the
model's function has the same name.) -/
protected theorem adcUnpack : Obligations.AdcUnpack :=
  ⟨fun b0 b1 b2 => ⟨adcUnpack_eq_append b0 b1 b2, adcUnpack_toNat b0 b1 b2⟩, by decide, by decide⟩

end Sys2Proof.Proofs
end

section
/-! PROOFS. The illegal command words (30_encoding R91 to R93) and what an accepted write of one does
(60_exceptions R242). -/

namespace Sys2Proof

/-- The unassigned opcodes (R93). -/
theorem decodeOp_eq_none_iff (op : BitVec 4) :
    decodeOp op = none ↔ op = 0x0#4 ∨ op = 0x3#4 ∨ 0xA#4 ≤ op := by
  revert op; decide

/-- Bits 7:4 of a command's byte are zero (R91). -/
theorem encodeByte_zeroField {i : Instr} (h : i.isHost = true) : (encodeByte i).extractLsb' 4 4 = 0#4 := by
  cases i <;> revert h <;> decide

/-- A command word is its opcode in bits 3:0 below four zero bits (R91). -/
theorem cmdByte_of_zeroField {w : Word} (h : w.extractLsb' 4 4 = 0#4) :
    cmdByte w = (w.extractLsb' 0 4).zeroExtend 8 := by
  have hsplit : cmdByte w = w.extractLsb' 4 4 ++ w.extractLsb' 0 4 :=
    (BitVec.extractLsb'_append_extractLsb'_eq_extractLsb' (start₁ := 0) (len₁ := 4) (len₂ := 4) rfl).symm
  rw [hsplit, h]
  exact (BitVec.setWidth_eq_append (by decide)).symm

/-- While bits 7:4 are zero, the opcode alone says which command the word is (R91, R92). -/
theorem decodeCmd_of_zeroField {w : Word} (h : w.extractLsb' 4 4 = 0#4) :
    decodeCmd w = decodeOp (w.extractLsb' 0 4) := by
  rw [decodeCmd, cmdByte_of_zeroField h, decodeOp]

/-- Every legal word has zeros in bits 7:4 (R91, R93). -/
theorem zeroField_of_decodeCmd {w : Word} {i : Instr} (h : decodeCmd w = some i) :
    w.extractLsb' 4 4 = 0#4 := by
  obtain ⟨hbyte, -⟩ := (findRow_iff .host (cmdByte w) i).1 h
  have hfield : (cmdByte w).extractLsb' 4 4 = w.extractLsb' 4 4 :=
    BitVec.extractLsb'_extractLsb'_of_le (by decide)
  rw [← hfield, hbyte, encodeByte_zeroField (decodeCmd_isHost h)]

/-- The illegal words: bits 7:4 not zero, or an unassigned opcode (R93). -/
theorem decodeCmd_eq_none_iff (w : Word) :
    decodeCmd w = none ↔ w.extractLsb' 4 4 ≠ 0#4 ∨ decodeOp (w.extractLsb' 0 4) = none := by
  by_cases hfield : w.extractLsb' 4 4 = 0#4
  · simp [hfield, decodeCmd_of_zeroField hfield]
  · have hnone : decodeCmd w = none :=
      Option.eq_none_iff_forall_ne_some.2 fun i hi => hfield (zeroField_of_decodeCmd hi)
    simp [hfield, hnone]

namespace Machine

/-- A write to CMD is accepted while `BUSY = 0` (R29). -/
theorem hostWrite_cmd {s : State} (h : s.busy = false) (w : Word) : hostWrite 0x00 w s = accept w s := by
  simp [hostWrite, regAt, h]

/-- The acknowledgement in an accepted write of an illegal word is not seen: the exception raised in
the same step sets again all that it cleared (R242, R248). -/
theorem accept_illegal_eq_abortedWith {w : Word} (h : decodeCmd w = none) (s : State) :
    accept w s = abortedWith (w.extractLsb' 0 4) 2 s := by
  rw [accept_illegal h, raiseWith_eq_abortedWith rfl]
  rfl

end Machine

end Sys2Proof
end

section
/-! PROOFS. The statements about the encoding (30_encoding). -/

open Sys2Proof Sys2Proof.Machine

namespace Sys2Proof.Proofs

/-- Settles O6: the illegal words by the zero field and the unassigned opcodes, the step by what accepting
an illegal word does. -/
theorem illegalCommandRaised : Obligations.IllegalCommandRaised := by
  refine ⟨fun w => ?_, fun s w rest hhost hbusy hillegal => ?_⟩
  · rw [decodeCmd_eq_none_iff, decodeOp_eq_none_iff]
  · rw [step_write hhost, hostWrite_cmd (s := { s with host := rest }) hbusy,
      accept_illegal_eq_abortedWith hillegal]

end Sys2Proof.Proofs
end

section
/-! PROOFS. The command bytes that the BH1750 commands select, and the settle delay of each
(40_bh1750_sequencer R130 to R132). -/

namespace Sys2Proof.Machine

/-- The legal resolution codes: high, ultra-high and low (R33). -/
theorem res_legal_cases {res : BitVec 2} (h : res ≠ 0b10#2) :
    res = 0b00#2 ∨ res = 0b01#2 ∨ res = 0b11#2 := by
  revert res; decide

/-- The continuous commands carry the resolution code in their low bits (R130). -/
theorem cmdSelect_continuous_byte {res : BitVec 2} (h : res ≠ 0b10#2) :
    (cmdSelect false res).map WireCmd.byte = some (0x10#8 ||| res.zeroExtend 8) := by
  rcases res_legal_cases h with rfl | rfl | rfl <;> rfl

/-- In one-time mode BH_INIT powers the chip down, whatever the resolution (R130). -/
theorem cmdSelect_oneTime {res : BitVec 2} (h : res ≠ 0b10#2) : cmdSelect true res = some .powerDown := by
  simp [cmdSelect, h]

/-- The one-time commands carry the resolution code in their low bits (R131). -/
theorem trigSelect_byte {res : BitVec 2} (h : res ≠ 0b10#2) :
    (trigSelect res).map WireCmd.byte = some (0x20#8 ||| res.zeroExtend 8) := by
  rcases res_legal_cases h with rfl | rfl | rfl <;> rfl

/-- The table of R132: a wire command's byte with its settle delay in milliseconds. -/
def settleTable : List (Byte × Nat) :=
  [(0x00#8, 1), (0x01#8, 1), (0x07#8, 1), (0x10#8, 180), (0x11#8, 180), (0x13#8, 24),
    (0x20#8, 24), (0x21#8, 24), (0x23#8, 24)]

/-- Each row of the table is what SettleMs gives (R132). -/
theorem settleMs_of_mem {c : Byte} {n : Nat} (h : (c, n) ∈ settleTable) : settleMs c = some n :=
  (by decide : ∀ p ∈ settleTable, settleMs p.1 = some p.2) (c, n) h

/-- Every wire command has a row in the table (R132). -/
theorem byte_mem_settleTable (w : WireCmd) : ∃ n, (w.byte, n) ∈ settleTable := by
  cases w
  case powerDown | powerUp | reset => exact ⟨1, by decide⟩
  case contHigh | contUhigh => exact ⟨180, by decide⟩
  case contLow | otHigh | otUhigh | otLow => exact ⟨24, by decide⟩

/-- Only the byte of a wire command has a settle delay (R132). -/
theorem exists_wireCmd_of_settleMs {c : Byte} {n : Nat} (h : settleMs c = some n) :
    ∃ w : WireCmd, w.byte = c := by
  unfold settleMs at h
  split_ifs at h with h00 h01 h07 h10 h11 h13 h20 h21 h23
  · exact ⟨.powerDown, h00.symm⟩
  · exact ⟨.powerUp, h01.symm⟩
  · exact ⟨.reset, h07.symm⟩
  · exact ⟨.contHigh, h10.symm⟩
  · exact ⟨.contUhigh, h11.symm⟩
  · exact ⟨.contLow, h13.symm⟩
  · exact ⟨.otHigh, h20.symm⟩
  · exact ⟨.otUhigh, h21.symm⟩
  · exact ⟨.otLow, h23.symm⟩

/-- SettleMs is the table (R132). -/
theorem settleMs_eq_some_iff {c : Byte} {n : Nat} : settleMs c = some n ↔ (c, n) ∈ settleTable := by
  refine ⟨fun h => ?_, settleMs_of_mem⟩
  obtain ⟨w, rfl⟩ := exists_wireCmd_of_settleMs h
  obtain ⟨m, hm⟩ := byte_mem_settleTable w
  have hnm : n = m := Option.some.inj (h.symm.trans (settleMs_of_mem hm))
  exact hnm ▸ hm

end Sys2Proof.Machine
end

section
/-! PROOFS. The statements about the BH1750's pure functions (40_bh1750_sequencer R130 to R132). -/

open Sys2Proof Sys2Proof.Machine

namespace Sys2Proof.Proofs

/-- Settles O15: the bytes by the three legal resolution codes, the named commands by evaluation. -/
theorem commandSelection : Obligations.CommandSelection := by
  refine ⟨fun res h => ⟨cmdSelect_continuous_byte h, ?_, trigSelect_byte h⟩, fun _ => if_pos rfl, rfl,
    rfl, rfl, rfl, rfl, rfl, rfl⟩
  rw [cmdSelect_oneTime h]
  rfl

/-- Settles O16: SettleMs is the table, since each row holds and every byte with a delay has a row. -/
theorem settleDelays : Obligations.SettleDelays :=
  fun _ _ => settleMs_eq_some_iff

end Sys2Proof.Proofs
end

section
/-! PROOFS. The bytes that BMP_INIT writes (41_bmp280_sequencer R163, R164) and AUX after the auxiliary
reads (R169, R170), as bit strings and as numbers. -/

namespace Sys2Proof.Machine

/-- The control byte is the string of its three fields (R113, R163). -/
theorem ctrlPack_eq_append (p : Params) (t q : BitVec 3) :
    ctrlPack p t q = t ++ q ++ p.normalModeBits := by
  have hjoin := BitVec.setWidth_append_append_eq_shiftLeft_setWidth_or (w''' := 8) (b := t) (b' := q)
    (b'' := p.normalModeBits)
  rw [ctrlPack]
  exact hjoin.symm.trans (BitVec.setWidth_eq _)

/-- The config byte as a number: what the shifts push past bit 7 is cut off (R164). -/
theorem configPack_toNat (p : Params) (sb f : BitVec 3) :
    (configPack p sb f).toNat = ((sb.toNat <<< 5) ||| (f.toNat <<< p.filterShift)) % 256 := by
  have hbyte (c : BitVec 3) : (c.zeroExtend 8).toNat = c.toNat :=
    BitVec.toNat_setWidth_of_le (by decide)
  rw [configPack, BitVec.toNat_or, BitVec.toNat_shiftLeft, BitVec.toNat_shiftLeft, hbyte, hbyte]
  exact (Nat.or_mod_two_pow (n := 8)).symm

/-- With both codes shifted by 5 the config byte is the or of the codes above five zeros (R114, R164). -/
theorem configPack_of_shift_five {p : Params} (h : p.filterShift = 5) (sb f : BitVec 3) :
    configPack p sb f = (sb ||| f) ++ 0#5 := by
  have hjoin := BitVec.setWidth_append_eq_shiftLeft_setWidth_or (w'' := 8) (b := sb ||| f) (b' := 0#5)
  rw [BitVec.setWidth_eq, BitVec.setWidth_or, BitVec.shiftLeft_or_distrib, BitVec.setWidth_zero,
    BitVec.or_zero] at hjoin
  rw [configPack, h, hjoin]

/-- AUX after an identity read is the byte (R39, R169). -/
theorem auxOfId_eq_ofNat (b : Byte) : auxOfId b = BitVec.ofNat 32 b.toNat :=
  (BitVec.ofNat_toNat 32 b).symm

/-- AUX after a status read is the string IM_UPDATE, MEASURING, status byte (R39, R170). -/
theorem auxOfStatus_eq_append (p : Params) (b : Byte) :
    auxOfStatus p b =
      (BitVec.ofBool (statusDecode p b).2 ++ BitVec.ofBool (statusDecode p b).1 ++ b).setWidth 32 := by
  rw [BitVec.setWidth_append_append_eq_shiftLeft_setWidth_or, auxOfStatus, flagAt, flagAt]
  ac_rfl

/-- AUX after a status read as a number: MEASURING counts at bit 8, IM_UPDATE at bit 9 (R39, R170). -/
theorem auxOfStatus_eq_ofNat (p : Params) (b : Byte) :
    auxOfStatus p b =
      BitVec.ofNat 32 (b.toNat + (if b.getLsbD p.stMeasuringBit.val then 256 else 0) +
        (if b.getLsbD p.stImUpdateBit.val then 512 else 0)) := by
  have hbit (c : Bool) (n : Nat) : (if c then n else 0) = c.toNat * n := by cases c <;> simp
  rw [auxOfStatus_eq_append, ← BitVec.ofNat_toNat, toNat_append_mul, toNat_append_mul,
    BitVec.toNat_ofBool, BitVec.toNat_ofBool, hbit, hbit]
  congr 1
  simp only [statusDecode]
  omega

end Sys2Proof.Machine
end

section
/-! PROOFS. The bus accesses and the exceptions of the BMP280 commands, as whole next states
(41_bmp280_sequencer R160, R166 to R171; 60_exceptions R248). -/

namespace Sys2Proof.Machine

/-- An exception outside BMP_INIT, other than a transport failure, changes the flags, ERRINFO and SEQ
only (R248). -/
theorem raise_eq_abortedWith {e : Exc} {s : State} (hop : s.seq.op ≠ 0x4#4)
    (hkind : errKindAfter e s.errKind = s.errKind) : raise e s = abortedWith s.seq.op e.code s := by
  rw [raise_eq (not_constructing_of_op hop), raiseWith_eq_abortedWith hkind]

/-- A bus step outside BMP_INIT that latches nothing, answered `err(k)`: TransportFailure(k) (R79,
R248). -/
theorem busCall_eq_errStep {t : Txn} {bind : List Byte → State → State} {s : State} {k : BusErr}
    {rest : List Answer} (hop : s.seq.op ≠ 0x4#4) (h : s.answers = .err k :: rest) :
    busCall t id bind s = .next (errStep s.seq.op t k rest s) := by
  have hother : constructingBmp (answered t (.err k) rest s) = false := not_constructing_of_op hop
  rw [busCall_fails h, id_eq, raise_eq hother]
  rfl

/-- The temperature frame arrives (R112, R118). -/
theorem fetchAdcT_ok {s : State} {b0 b1 b2 : Byte} {rest : List Answer}
    (h : s.answers = .ok [b0, b1, b2] :: rest) :
    fetchAdcT s = .next { okStep (.writeRead (bmpAddr s.bmpCfg) [0xFA] 3) [b0, b1, b2] rest s with
      adcTBuf := ⟨b0, b1, b2⟩ } :=
  busCall_ok h rfl

/-- The temperature read fails outside BMP_INIT (R79, R112). -/
theorem fetchAdcT_err {s : State} {k : BusErr} {rest : List Answer} (hop : s.seq.op ≠ 0x4#4)
    (h : s.answers = .err k :: rest) :
    fetchAdcT s = .next (errStep s.seq.op (.writeRead (bmpAddr s.bmpCfg) [0xFA] 3) k rest s) :=
  busCall_eq_errStep hop h

/-- The pressure frame arrives (R111, R118). -/
theorem fetchAdcP_ok {s : State} {b0 b1 b2 : Byte} {rest : List Answer}
    (h : s.answers = .ok [b0, b1, b2] :: rest) :
    fetchAdcP s = .next { okStep (.writeRead (bmpAddr s.bmpCfg) [0xF7] 3) [b0, b1, b2] rest s with
      adcPBuf := ⟨b0, b1, b2⟩ } :=
  busCall_ok h rfl

/-- The pressure read fails outside BMP_INIT (R79, R111). -/
theorem fetchAdcP_err {s : State} {k : BusErr} {rest : List Answer} (hop : s.seq.op ≠ 0x4#4)
    (h : s.answers = .err k :: rest) :
    fetchAdcP s = .next (errStep s.seq.op (.writeRead (bmpAddr s.bmpCfg) [0xF7] 3) k rest s) :=
  busCall_eq_errStep hop h

/-- The byte of register `r` arrives (R106, R108). -/
theorem fetchAux_ok (r : BmpReg) {s : State} {b : Byte} {rest : List Answer}
    (h : s.answers = .ok [b] :: rest) :
    fetchAux r s = .next { okStep (.writeRead (bmpAddr s.bmpCfg) [r.addr] 1) [b] rest s with
      auxBuf := b } :=
  busCall_ok h rfl

/-- The write of register `r` is taken (R107, R109, R110). -/
theorem storeReg_ok (r : BmpReg) (v : Byte) {s : State} {rest : List Answer}
    (h : s.answers = .ok [] :: rest) :
    storeReg r v s = .next (okStep (.write (bmpAddr s.bmpCfg) [r.addr, v]) [] rest s) :=
  busCall_ok h rfl

/-- Both results of CompT are written (R167 s1). -/
theorem compensateT_of_some {s : State} {tf T : Int}
    (h : compTOf s.params.ovfMode s.adcTBuf s.x = some (tf, T)) :
    compensateT s = { doneStep s with tFine := BitVec.ofInt 32 tf, temp := BitVec.ofInt 32 T } := by
  rw [compensateT, h]
  rfl

/-- CompT overflows (R167 s1, R261). -/
theorem compensateT_of_none {s : State} (hop : s.seq.op ≠ 0x4#4)
    (h : compTOf s.params.ovfMode s.adcTBuf s.x = none) :
    compensateT s = abortedWith s.seq.op 6 s := by
  rw [compensateT, h]
  exact raise_eq_abortedWith hop rfl

/-- `t_fine` and the result of CompP are written, the other result of CompT is dropped (R168 s2). -/
theorem compensateP_of_some {s : State} {tf T : Int} {P : Word}
    (hT : compTOf s.params.ovfMode s.adcTBuf s.x = some (tf, T))
    (hP : compPOf s.params.ovfMode s.adcPBuf tf s.x = some P) :
    compensateP s = { doneStep s with tFine := BitVec.ofInt 32 tf, press := P } := by
  simp only [compensateP, hT, hP]
  rfl

/-- CompT or CompP overflows (R168 s2, R261). -/
theorem compensateP_of_none {s : State} (hop : s.seq.op ≠ 0x4#4)
    (h : compTOf s.params.ovfMode s.adcTBuf s.x = none ∨
      ∃ tf T, compTOf s.params.ovfMode s.adcTBuf s.x = some (tf, T) ∧
        compPOf s.params.ovfMode s.adcPBuf tf s.x = none) :
    compensateP s = abortedWith s.seq.op 6 s := by
  rcases h with hT | ⟨tf, T, hT, hP⟩
  · simp only [compensateP, hT]
    exact raise_eq_abortedWith hop rfl
  · simp only [compensateP, hT, hP]
    exact raise_eq_abortedWith hop rfl

/-- The worked temperature example, in both overflow modes (R167, R198). -/
theorem compT_worked_example (m : OvfMode) : compT m 519888 refT1 refT2 refT3 = some (128422, 2508) := by
  cases m <;> decide

/-- The worked pressure example, in both overflow modes (R168, R203). -/
theorem compP_worked_example (m : OvfMode) : compP m 415148 128422 refP = some 25767233 := by
  cases m <;> decide

/-- CompT on the worked example's frame and coefficients (R167). -/
theorem compTOf_worked_example (m : OvfMode) {x : Calib} (h1 : x.digT1.toNat = 27504)
    (h2 : x.digT2.toInt = 26435) (h3 : x.digT3.toInt = -1000) :
    compTOf m ⟨0x7E, 0xED, 0x00⟩ x = some (128422, 2508) := by
  rw [compTOf, h1, h2, h3]
  exact compT_worked_example m

/-- CompP on the worked example's frame and coefficients (R168). -/
theorem compPOf_worked_example (m : OvfMode) {x : Calib} (h : x.pCoefs = refP) :
    compPOf m ⟨0x65, 0x5A, 0xC0⟩ 128422 x = some 25767233 := by
  rw [compPOf, h]
  exact compP_worked_example m

end Sys2Proof.Machine
end

section
/-! PROOFS. The meaning of the five commands of a constructed BMP280 driver at each step number: NotReady or
one bus call at s0 (R160), and the later steps (R167 to R171). -/

namespace Sys2Proof.Machine

/-- None of the five is BMP_INIT. -/
theorem op_ne_bmpInit {i : Instr} {s : State} {k : Nat} (hi : isBmpRead i) (hat : s.at i k) :
    s.seq.op ≠ 0x4#4 := by
  rw [hat.1]
  rcases hi with rfl | rfl | rfl | rfl | rfl <;> decide

/-- NotReady, the admission of the five commands (R160). -/
theorem exec_notReady {i : Instr} {s : State} (hi : isBmpRead i) (hat : s.at i 0)
    (hr : s.bmpReady = false) : exec i s = .next (abortedWith (opcodeOf i) 3 s) := by
  have hraise : exec i s = .next (raise .notReady s) := by
    have hk := at_step (by decide) hat
    rcases hi with rfl | rfl | rfl | rfl | rfl
    · simp [exec, execBmpReadT, hk, hr]
    · simp [exec, execBmpReadP, hk, hr]
    · simp [exec, execBmpReadId, hk, hr]
    · simp [exec, execBmpReadStatus, hk, hr]
    · simp [exec, execBmpReset, hk, hr]
  rw [hraise, raise_eq_abortedWith (op_ne_bmpInit hi hat) rfl, hat.1]
  rfl

theorem exec_bmpReadT_s0 {s : State} (hat : s.at .bmpReadT 0) (hr : s.bmpReady = true) :
    exec .bmpReadT s = fetchAdcT s := by
  simp [exec, execBmpReadT, at_step (by decide) hat, hr]

theorem exec_bmpReadT_s1 {s : State} (hat : s.at .bmpReadT 1) :
    exec .bmpReadT s = .next (compensateT s) := by
  simp [exec, execBmpReadT, at_step (by decide) hat]

theorem exec_bmpReadP_s0 {s : State} (hat : s.at .bmpReadP 0) (hr : s.bmpReady = true) :
    exec .bmpReadP s = fetchAdcT s := by
  simp [exec, execBmpReadP, at_step (by decide) hat, hr]

theorem exec_bmpReadP_s1 {s : State} (hat : s.at .bmpReadP 1) : exec .bmpReadP s = fetchAdcP s := by
  simp [exec, execBmpReadP, at_step (by decide) hat]

theorem exec_bmpReadP_s2 {s : State} (hat : s.at .bmpReadP 2) :
    exec .bmpReadP s = .next (compensateP s) := by
  simp [exec, execBmpReadP, at_step (by decide) hat]

theorem exec_bmpReadId_s0 {s : State} (hat : s.at .bmpReadId 0) (hr : s.bmpReady = true) :
    exec .bmpReadId s = fetchAux .id s := by
  simp [exec, execBmpReadId, at_step (by decide) hat, hr]

theorem exec_bmpReadId_s1 {s : State} (hat : s.at .bmpReadId 1) :
    exec .bmpReadId s = .next { doneStep s with aux := auxOfId s.auxBuf } := by
  simp only [exec, execBmpReadId, at_step (by decide) hat]
  rfl

theorem exec_bmpReadStatus_s0 {s : State} (hat : s.at .bmpReadStatus 0) (hr : s.bmpReady = true) :
    exec .bmpReadStatus s = fetchAux .status s := by
  simp [exec, execBmpReadStatus, at_step (by decide) hat, hr]

theorem exec_bmpReadStatus_s1 {s : State} (hat : s.at .bmpReadStatus 1) :
    exec .bmpReadStatus s = .next { doneStep s with aux := auxOfStatus s.params s.auxBuf } := by
  simp only [exec, execBmpReadStatus, at_step (by decide) hat]
  rfl

theorem exec_bmpReset_s0 {s : State} (hat : s.at .bmpReset 0) (hr : s.bmpReady = true) :
    exec .bmpReset s = storeResetWord s := by
  simp [exec, execBmpReset, at_step (by decide) hat, hr]

theorem exec_bmpReset_s1 {s : State} (hat : s.at .bmpReset 1) :
    exec .bmpReset s = .next (doneStep s) := by
  simp only [exec, execBmpReset, at_step (by decide) hat]
  rfl

/-- Step s0 of an admitted command is one bus call, of the transaction that the step makes (R167 to
R171). -/
theorem exec_s0_eq_busCall {i : Instr} {s : State} (hi : isBmpRead i) (hat : s.at i 0)
    (hr : s.bmpReady = true) :
    ∃ t bind, stepTxn s = some t ∧ exec i s = busCall t id bind s := by
  have hk := at_step (by decide) hat
  rcases hi with rfl | rfl | rfl | rfl | rfl
  · exact ⟨_, _, by simp [stepTxn, fetch_at rfl hat.1, hk, hr, memRead], exec_bmpReadT_s0 hat hr⟩
  · exact ⟨_, _, by simp [stepTxn, fetch_at rfl hat.1, hk, hr, memRead], exec_bmpReadP_s0 hat hr⟩
  · exact ⟨_, _, by simp [stepTxn, fetch_at rfl hat.1, hk, hr, memRead], exec_bmpReadId_s0 hat hr⟩
  · exact ⟨_, _, by simp [stepTxn, fetch_at rfl hat.1, hk, hr, memRead], exec_bmpReadStatus_s0 hat hr⟩
  · exact ⟨_, _, by simp [stepTxn, fetch_at rfl hat.1, hk, hr, memWrite], exec_bmpReset_s0 hat hr⟩

/-- TransportFailure at step s0 of an admitted command (R79, R167 to R171). -/
theorem exec_s0_eq_errStep {i : Instr} {s : State} {t : Txn} {k : BusErr} {rest : List Answer}
    (hi : isBmpRead i) (hat : s.at i 0) (hr : s.bmpReady = true) (ht : stepTxn s = some t)
    (h : s.answers = .err k :: rest) : exec i s = .next (errStep (opcodeOf i) t k rest s) := by
  obtain ⟨t', bind, ht', hexec⟩ := exec_s0_eq_busCall hi hat hr
  obtain rfl : t' = t := Option.some.inj (ht'.symm.trans ht)
  rw [hexec, busCall_eq_errStep (op_ne_bmpInit hi hat) h, hat.1]

end Sys2Proof.Machine
end

section
/-! PROOFS. The statements about the BMP280's commands and the bytes they send (41_bmp280_sequencer). -/

open Sys2Proof Sys2Proof.Machine

namespace Sys2Proof.Proofs

/-- Settles O30: admission and transport failure as for every read command, the frame by its bus access,
the results and the overflow by what the compensation step does. -/
theorem bmpReadTSteps : Obligations.BmpReadTSteps := by
  intro s
  have hi : isBmpRead .bmpReadT := .inl rfl
  refine ⟨exec_notReady hi, fun b0 b1 b2 rest hat hr h => ?_, fun k rest hat hr h => ?_,
    fun tf T hat h => ?_, fun hat h => ?_, fun hat hbuf h1 h2 h3 => ?_⟩
  · rw [exec_bmpReadT_s0 hat hr, fetchAdcT_ok h]
  · rw [exec_bmpReadT_s0 hat hr, fetchAdcT_err (op_ne_bmpInit hi hat) h, hat.1]
    rfl
  · rw [exec_bmpReadT_s1 hat, compensateT_of_some h]
  · rw [exec_bmpReadT_s1 hat, compensateT_of_none (op_ne_bmpInit hi hat) h, hat.1]
    rfl
  · have hT : compTOf s.params.ovfMode s.adcTBuf s.x = some (128422, 2508) := by
      rw [hbuf]
      exact compTOf_worked_example _ h1 h2 h3
    rw [exec_bmpReadT_s1 hat, compensateT_of_some hT]
    rfl

/-- Settles O32: as for O30, with the pressure read between, and the overflow of either function. -/
theorem bmpReadPSteps : Obligations.BmpReadPSteps := by
  intro s
  have hi : isBmpRead .bmpReadP := .inr (.inl rfl)
  refine ⟨exec_notReady hi, fun b0 b1 b2 rest hat hr h => ?_, fun k rest hat hr h => ?_,
    fun b0 b1 b2 rest hat h => ?_, fun k rest hat h => ?_, fun tf T P hat hT hP => ?_,
    fun hat h => ?_, fun hat hbufT hbufP h1 h2 h3 hx => ?_⟩
  · rw [exec_bmpReadP_s0 hat hr, fetchAdcT_ok h]
  · rw [exec_bmpReadP_s0 hat hr, fetchAdcT_err (op_ne_bmpInit hi hat) h, hat.1]
    rfl
  · rw [exec_bmpReadP_s1 hat, fetchAdcP_ok h]
  · rw [exec_bmpReadP_s1 hat, fetchAdcP_err (op_ne_bmpInit hi hat) h, hat.1]
    rfl
  · rw [exec_bmpReadP_s2 hat, compensateP_of_some hT hP]
  · rw [exec_bmpReadP_s2 hat, compensateP_of_none (op_ne_bmpInit hi hat) h, hat.1]
    rfl
  · have hT : compTOf s.params.ovfMode s.adcTBuf s.x = some (128422, 2508) := by
      rw [hbufT]
      exact compTOf_worked_example _ h1 h2 h3
    have hP : compPOf s.params.ovfMode s.adcPBuf 128422 s.x = some 25767233 := by
      rw [hbufP]
      exact compPOf_worked_example _ hx
    rw [exec_bmpReadP_s2 hat, compensateP_of_some hT hP]
    rfl

/-- The three auxiliary commands with their opcodes. -/
theorem isBmpRead_of_mem_auxiliary {i : Instr} {op : BitVec 4}
    (h : (i, op) ∈ [(Instr.bmpReadId, 7#4), (.bmpReadStatus, 8#4), (.bmpReset, 9#4)]) :
    isBmpRead i ∧ op = opcodeOf i := by
  simp only [List.mem_cons, Prod.mk.injEq, List.not_mem_nil, or_false] at h
  rcases h with ⟨rfl, rfl⟩ | ⟨rfl, rfl⟩ | ⟨rfl, rfl⟩
  · exact ⟨.inr (.inr (.inl rfl)), rfl⟩
  · exact ⟨.inr (.inr (.inr (.inl rfl))), rfl⟩
  · exact ⟨.inr (.inr (.inr (.inr rfl))), rfl⟩

/-- Settles O34: admission and transport failure as for every read command, the one transaction by its bus
access, AUX after the status read as a number. -/
theorem auxiliarySteps : Obligations.AuxiliarySteps := by
  refine fun s => ⟨fun i op hmem hat hr => ?_, fun i op t k rest hmem hat hr ht h => ?_,
    fun b rest hat hr h => (exec_bmpReadId_s0 hat hr).trans (fetchAux_ok .id h), fun hat => ?_,
    fun b rest hat hr h => (exec_bmpReadStatus_s0 hat hr).trans (fetchAux_ok .status h), fun hat => ?_,
    fun rest hat hr h => (exec_bmpReset_s0 hat hr).trans (storeReg_ok .reset _ h), exec_bmpReset_s1⟩
  · obtain ⟨hi, rfl⟩ := isBmpRead_of_mem_auxiliary hmem
    exact exec_notReady hi hat hr
  · obtain ⟨hi, rfl⟩ := isBmpRead_of_mem_auxiliary hmem
    exact exec_s0_eq_errStep hi hat hr ht h
  · rw [exec_bmpReadId_s1 hat, auxOfId_eq_ofNat]
  · rw [exec_bmpReadStatus_s1 hat, auxOfStatus_eq_ofNat]

/-- Settles O26: the fields by the two bytes as bit strings, the examples by evaluation. -/
theorem controlAndConfigBytes : Obligations.ControlAndConfigBytes := by
  refine ⟨fun p t q => ?_, by decide, by decide, by decide, by decide,
    fun p sb f => ⟨configPack_toNat p sb f, fun h => configPack_of_shift_five h sb f⟩, by decide,
    by decide, by decide, by decide, by decide, by decide, by decide⟩
  rw [ctrlPack_eq_append]
  refine ⟨?_, ?_, BitVec.extractLsb'_append_eq_right⟩
  · rw [BitVec.extractLsb'_append_eq_of_le (by decide)]
    exact BitVec.extractLsb'_append_eq_left
  · rw [BitVec.extractLsb'_append_eq_of_le (by decide)]
    exact BitVec.extractLsb'_append_eq_right

end Sys2Proof.Proofs
end

section
/-! PROOFS. Decoding and encoding at a port, in both directions, and the byte of an accepted command word
(30_encoding R90 to R112). -/

namespace Sys2Proof

/-- No row of the table has an operand, so every instruction is well-formed (R90). -/
theorem wf_eq_true (i : Instr) : i.wf = true := by cases i <;> rfl

/-- No instruction is the empty byte string (R124). -/
theorem decode_nil_ne_ok (p : Port) (r : Instr × List Byte) : decode p [] ≠ .ok r := by
  simp [decode]

/-- A byte string decodes by the table's row for its first byte, the rest handed back (R91, R94, R104). -/
theorem decode_cons_eq_ok_iff {p : Port} {b : Byte} {bytes rest : List Byte} {i : Instr} :
    decode p (b :: bytes) = .ok (i, rest) ↔ findRow b (rowsAt p) = some i ∧ bytes = rest := by
  cases h : findRow b (rowsAt p) <;> simp [decode, h]

/-- The opcode in a legal command word is that of its command (R91). -/
theorem opcodeOf_of_decodeCmd {w : Word} {i : Instr} (h : decodeCmd w = some i) :
    opcodeOf i = w.extractLsb' 0 4 := by
  obtain ⟨hbyte, -⟩ := (findRow_iff .host (cmdByte w) i).1 h
  rw [opcodeOf, ← hbyte]
  exact BitVec.extractLsb'_extractLsb'_of_le (by decide)

/-- The opcode is in the low byte of the word (R29, R91). -/
theorem cmdByte_opcode (w : Word) : (cmdByte w).extractLsb' 0 4 = w.extractLsb' 0 4 :=
  BitVec.extractLsb'_extractLsb'_of_le (by decide)

namespace Machine

/-- An accepted write depends on the low byte of the word only (R29). -/
theorem accept_congr {w v : Word} (h : cmdByte w = cmdByte v) (s : State) : accept w s = accept v s := by
  have hop : w.extractLsb' 0 4 = v.extractLsb' 0 4 := by
    rw [← cmdByte_opcode w, h, cmdByte_opcode v]
  simp only [accept, decodeCmd, h, hop]

/-- A write to CMD is dropped while `BUSY = 1` (R260; log 8). -/
theorem hostWrite_cmd_busy {s : State} (h : s.busy = true) (w : Word) : hostWrite 0x00 w s = s := by
  simp [hostWrite, regAt, h]

end Machine

end Sys2Proof
end

section
/-! PROOFS. The statements about decoding, encoding and the command write (30_encoding, 10_state R29). -/

open Sys2Proof Sys2Proof.Machine

namespace Sys2Proof.Proofs

/-- Settles O5: the first byte decides, and it is found at a port exactly when it is the instruction's
byte. -/
theorem decodeAndEncodeAgree : Obligations.DecodeAndEncodeAgree := by
  intro p bytes i rest
  cases bytes with
  | nil => simp [decode_nil_ne_ok, encode]
  | cons b bytes =>
    rw [decode_cons_eq_ok_iff, findRow_iff]
    simp [wf_eq_true, encode]
    tauto

/-- Settles O4: the fourteen words evaluate. -/
theorem specWordsDecode : Obligations.SpecWordsDecode :=
  ⟨rfl, rfl, rfl, rfl, rfl, rfl, rfl, rfl, rfl, rfl, rfl, rfl, rfl, rfl⟩

/-- Settles O7: the word's low byte is a command's, so the write is accepted with that command's opcode;
bits 31:8 are read by nothing. -/
theorem acceptedCommandWrite : Obligations.AcceptedCommandWrite := by
  refine ⟨fun s w rest i hhost hbusy hdec => ?_, fun w v s h => ?_⟩
  · have hcmd : decodeCmd w = some i := (decode_cons_eq_ok_iff.1 hdec).1
    rw [step_write hhost, hostWrite_cmd (s := { s with host := rest }) hbusy, accept_legal hcmd,
      opcodeOf_of_decodeCmd hcmd]
    rfl
  · by_cases hbusy : s.busy = true
    · rw [hostWrite_cmd_busy hbusy, hostWrite_cmd_busy hbusy]
    · rw [hostWrite_cmd (by simpa using hbusy), hostWrite_cmd (by simpa using hbusy), accept_congr h]

end Sys2Proof.Proofs
end

section
/-! PROOFS. What a step can do, in the terms invariants use: the host's side as a case list beside StepEffect,
and StepEffect seen through SEQ, the flags and the configuration (10_state R26, R27, R42; 60_exceptions
R248). -/

namespace Sys2Proof.Machine

/-- CMD, BH_CFG and BMP_CFG each stand at one index (R28). -/
theorem regAt_eq_cmd {i : HostIdx} (h : regAt i = some .cmd) : i = 0x00 := by
  revert i; decide

/-- An index none of the three is the index of a register that ignores writes (R28, R41). -/
theorem hostWrite_other {i : HostIdx} (hcmd : i ≠ 0x00#6) (hbh : i ≠ 0x04#6) (hbmp : i ≠ 0x05#6) (v : Word)
    (s : State) : hostWrite i v s = s := by
  have hreg : ∀ j : HostIdx, j ≠ 0x00#6 → j ≠ 0x04#6 → j ≠ 0x05#6 →
      regAt j ≠ some .cmd ∧ regAt j ≠ some .bhCfg ∧ regAt j ≠ some .bmpCfg := by decide
  obtain ⟨h0, h4, h5⟩ := hreg i hcmd hbh hbmp
  exact hostWrite_readOnly h0 h4 h5 v s

/-- Everything a step can do that is no step of a command: the host's action, or nothing (log 5). -/
inductive HostEffect (s : State) : State → Prop
  | keep (l : List HostAct) : HostEffect s { s with host := l }
  | command (w : Word) (i : Instr) (l : List HostAct) : s.host = .write 0x00 w :: l → s.busy = false →
      decodeCmd w = some i →
      HostEffect s { acknowledge s with host := l, busy := true, seq := ⟨opcodeOf i, 0⟩, timer := 0 }
  | illegal (w : Word) (l : List HostAct) : s.host = .write 0x00 w :: l → s.busy = false →
      decodeCmd w = none →
      HostEffect s (raiseWith (w.extractLsb' 0 4) .illegalCommand { s with host := l })
  | bhCfg (v : Word) (l : List HostAct) : s.bhReady = false → s.busy = false →
      HostEffect s { s with host := l, bhCfg := v &&& bhCfgMask }
  | bmpCfg (v : Word) (l : List HostAct) : s.bmpReady = false → s.busy = false →
      HostEffect s { s with host := l, bmpCfg := v &&& bmpCfgMask }
  | read (i : HostIdx) (l : List HostAct) : HostEffect s (hostRead i { s with host := l })
  | reset (l : List HostAct) : s.host = .rst :: l → HostEffect s (applyReset { s with host := l })

/-- A host write has one of the effects. -/
theorem hostWrite_effect {s : State} {i : HostIdx} {v : Word} {l : List HostAct}
    (hh : s.host = .write i v :: l) : HostEffect s (hostWrite i v { s with host := l }) := by
  rcases hostWrite_cases i v { s with host := l } with h | ⟨hr, hb, h⟩ | ⟨-, hr, hb, h⟩ | ⟨-, hr, hb, h⟩ <;>
    rw [h]
  · exact .keep l
  · rw [regAt_eq_cmd hr] at hh
    cases hd : decodeCmd v with
    | none =>
      rw [accept_illegal hd]
      exact .illegal v l hh hb hd
    | some j =>
      rw [accept_legal hd]
      exact .command v j l hh hb hd
  · exact .bhCfg v l hr hb
  · exact .bmpCfg v l hr hb

/-- The host's turn has one of the effects. -/
theorem turn_host_effect {s t : State} (h : turn s = .host t) : HostEffect s t := by
  rcases turn_host h with ⟨i, v, l, hh, rfl⟩ | ⟨i, l, -, rfl⟩ | ⟨l, hh, rfl⟩ | ⟨l, -, -, rfl⟩
  · exact hostWrite_effect hh
  · exact .read i l
  · exact .reset l hh
  · exact .keep l

/-- Every step has an effect of the host's side, or the command in SEQ has one of its own. -/
theorem step_effect {s t : State} (h : step s = .next t) :
    HostEffect s t ∨ ∃ l, s.seq ≠ Seq.idle ∧ s.seq.op ≠ 0#4 ∧ StepEffect { s with host := l } t := by
  rcases step_next h with ht | ⟨l, rfl, -⟩ | he
  · exact .inl (turn_host_effect ht)
  · exact .inl (.keep l)
  · exact .inr he

/-- An invariant that does not read the host's list is kept by every step when the effects of the host's
side and of the commands keep it. -/
theorem step_keeps {P : State → Prop} (hlist : ∀ s l, P s → P { s with host := l })
    (hhost : ∀ s t, HostEffect s t → P s → P t)
    (hstep : ∀ s t, StepEffect s t → s.seq ≠ Seq.idle → s.seq.op ≠ 0#4 → P s → P t)
    (s t : State) (hs : P s) (h : step s = .next t) : P t := by
  rcases step_effect h with he | ⟨l, hne, hop, he⟩
  · exact hhost s t he hs
  · exact hstep { s with host := l } t he hne hop (hlist s l hs)

/-- A state is not at two different steps of commands. -/
theorem at_disjoint {s : State} {i j : Instr} {k l : Nat} (h : s.at i k) (h' : s.at j l)
    (hne : opcodeOf i ≠ opcodeOf j ∨ BitVec.ofNat 3 k ≠ BitVec.ofNat 3 l) : False := by
  rcases hne with hne | hne
  · exact hne (h.1.symm.trans h'.1)
  · exact hne (h.2.symm.trans h'.2)

/-- At IDLE SEQ holds the opcode of no command (R26). -/
theorem op_ne_of_idle {t : State} {i : Instr} (hi : i.isHost = true) (h : t.seq = Seq.idle) :
    t.seq.op ≠ opcodeOf i := by
  rw [h]
  exact (opcodeOf_ne_zero hi).symm

/-- At IDLE the SCSE is at no step of a command (R26). -/
theorem not_at_of_idle {t : State} {i : Instr} {k : Nat} (hi : i.isHost = true) (h : t.seq = Seq.idle) :
    ¬ t.at i k :=
  fun hat => op_ne_of_idle hi h hat.1

/-- Step s0 is no later step. -/
theorem not_at_of_step_zero {t : State} {i : Instr} {k : Nat} (h : t.seq.step = 0#3)
    (hk : BitVec.ofNat 3 k ≠ 0#3) : ¬ t.at i k :=
  fun hat => hk (hat.2.symm.trans h)

/-- Where a step to the next number leads: to no other step of a command. -/
theorem not_at_of_succ {s t : State} {i j : Instr} {k l : Nat} (hs : s.at i k)
    (hseq : t.seq = ⟨s.seq.op, s.seq.step + 1⟩)
    (hne : opcodeOf i ≠ opcodeOf j ∨ BitVec.ofNat 3 (k + 1) ≠ BitVec.ofNat 3 l) : ¬ t.at j l :=
  fun hat => at_disjoint (at_succ hs hseq) hat hne

/-- The step of a command that sends a wire command is its admission step. -/
theorem sendsWire_at {s : State} {c : WireCmd} (h : sendsWire s c) : s.at .bhInit 0 ∨ s.at .bhRead 0 := by
  rcases h with ⟨hat, -⟩ | ⟨hat, -⟩
  · exact .inl hat
  · exact .inr hat

/-- No step of a command changes the configuration, the parameters or the host's list. -/
theorem StepEffect.frame {s t : State} (h : StepEffect s t) :
    t.bhCfg = s.bhCfg ∧ t.bmpCfg = s.bmpCfg ∧ t.params = s.params ∧ t.host = s.host := by
  cases h <;> simp

/-- The ready flags are set by the last steps of the two constructions, and left alone by every other step
of a command (R27). -/
theorem StepEffect.ready_cases {s t : State} (h : StepEffect s t) :
    (t.bhReady = s.bhReady ∨ s.at .bhInit 2) ∧
      (t.bmpReady = s.bmpReady ∨ s.at .bmpInit 4 ∧ t.x = s.x ∧ t.trace = s.trace) := by
  cases h
  case bhReady hat => exact ⟨.inr hat, .inl rfl⟩
  case bmpReady hat => exact ⟨.inl rfl, .inr ⟨hat, rfl, rfl⟩⟩
  case fail | reject => exact ⟨.inl (raise_bhReady _ _), .inl (raise_bmpReady _ _)⟩
  all_goals exact ⟨.inl rfl, .inl rfl⟩

/-- The step leaves the command in progress: flags, ERRINFO and results are as they were. -/
structure GoesOn (s t : State) : Prop where
  op : t.seq.op = s.seq.op
  busy : t.busy = s.busy
  done : t.done = s.done
  err : t.err = s.err
  errInfo : t.errInfo = s.errInfo
  bhReady : t.bhReady = s.bhReady
  bmpReady : t.bmpReady = s.bmpReady
  results : resultsOf t = resultsOf s

/-- The step ends the command by `done` (R10). -/
structure Completes (s t : State) : Prop where
  seq : t.seq = Seq.idle
  busy : t.busy = false
  done : t.done = true
  err : t.err = s.err
  errInfo : t.errInfo = s.errInfo

/-- The step ends the command by the exception `e` (R248). -/
structure Raises (e : Exc) (s t : State) : Prop where
  seq : t.seq = Seq.idle
  busy : t.busy = false
  done : t.done = true
  err : t.err = true
  errInfo : t.errInfo = errInfoWord s.seq.op e.code
  bhReady : t.bhReady = s.bhReady
  bmpReady : t.bmpReady = s.bmpReady
  results : resultsOf t = resultsOf s

/-- What `raise` does to the flags, after a step's other writes (R248). -/
theorem raises_raise {e : Exc} {s u : State} (hseq : u.seq = s.seq) (hbh : u.bhReady = s.bhReady)
    (hbmp : u.bmpReady = s.bmpReady) (hres : resultsOf u = resultsOf s) : Raises e s (raise e u) where
  seq := raise_seq e u
  busy := raise_busy e u
  done := raise_done e u
  err := raise_err e u
  errInfo := by rw [raise_errInfo, hseq]
  bhReady := (raise_bhReady e u).trans hbh
  bmpReady := (raise_bmpReady e u).trans hbmp
  results := by simpa [resultsOf] using hres

/-- A step of a command goes on, completes, or raises; ArithOverflow only under `fault` (R195). -/
theorem StepEffect.outcome {s t : State} (h : StepEffect s t) :
    GoesOn s t ∨ Completes s t ∨
      ∃ e, Raises e s t ∧ (e = .arithOverflow → s.params.ovfMode = .fault) := by
  cases h
  case wait | delayOn => exact .inl ⟨rfl, rfl, rfl, rfl, rfl, rfl, rfl, rfl⟩
  case wire | light | calib | adcT | adcP | auxByte | store | delayOver | skip =>
    exact .inl ⟨rfl, rfl, rfl, rfl, rfl, rfl, rfl, rfl⟩
  case fail => exact .inr (.inr ⟨_, raises_raise rfl rfl rfl rfl, nofun⟩)
  case reject e _ hwhy =>
    refine .inr (.inr ⟨e, raises_raise rfl rfl rfl rfl, fun he => ?_⟩)
    rcases hwhy with ⟨-, -, rfl⟩ | ⟨-, -, -, rfl⟩ | ⟨-, -, rfl⟩ | ⟨-, -, rfl⟩ | ⟨-, -, rfl⟩ | ⟨-, hm, -⟩
    · cases he
    · cases he
    · cases he
    · cases he
    · cases he
    · exact hm
  case bhReady | lux | bmpReady | temp | press | idByte | statusByte | resetSent =>
    exact .inr (.inl ⟨rfl, rfl, rfl, rfl, rfl⟩)

/-- What the admission step of a command checks (R135, R160). -/
def PassedAdmission (s : State) : Instr → Prop
  | .bhInit => s.bhReady = false ∧ bhRes s.bhCfg ≠ 0b10#2
  | .bhRead => s.bhReady = true
  | .bmpInit => s.bmpReady = false
  | .bmpReadT | .bmpReadP | .bmpReadId | .bmpReadStatus | .bmpReset => s.bmpReady = true
  | _ => True

/-- A resolution for which CmdSelect is defined is legal (R130). -/
theorem res_ne_of_cmdSelect {op : Bool} {res : BitVec 2} {c : WireCmd} (h : cmdSelect op res = some c) :
    res ≠ 0b10#2 := by
  rintro rfl
  cases h

/-- The moves of SEQ inside a command other than by sending a wire command: command, step, next step
(R137, R166 to R171). -/
def quietMoves : List (Instr × Nat × Nat) :=
  [(.bhInit, 1, 2), (.bhRead, 0, 2), (.bhRead, 1, 2), (.bhRead, 2, 3), (.bmpInit, 0, 1), (.bmpInit, 1, 2),
    (.bmpInit, 2, 3), (.bmpInit, 3, 4), (.bmpReadT, 0, 1), (.bmpReadP, 0, 1), (.bmpReadP, 1, 2),
    (.bmpReadId, 0, 1), (.bmpReadStatus, 0, 1), (.bmpReset, 0, 1)]

/-- A quiet move leads to a later step of a host command, never to the delay step of BhSend. -/
theorem quietMoves_spec {i : Instr} {k l : Nat} (h : (i, k, l) ∈ quietMoves) :
    i.isHost = true ∧ k < l ∧ l < stepCount i ∧ stepCount i < 8 ∧ ¬ (i = .bhInit ∧ l = 1) ∧
      ¬ (i = .bhRead ∧ l = 1) :=
  (by decide : ∀ m ∈ quietMoves, m.1.isHost = true ∧ m.2.1 < m.2.2 ∧ m.2.2 < stepCount m.1 ∧
    stepCount m.1 < 8 ∧ ¬ (m.1 = .bhInit ∧ m.2.2 = 1) ∧ ¬ (m.1 = .bhRead ∧ m.2.2 = 1)) _ h

/-- What a step of a command does to SEQ: it stays, with the latch, the coefficients and the trace; it goes to
IDLE; it goes to the delay step of BhSend; or it goes to another later step, from s0 only after admission
(R26, R134, R135, R160). -/
theorem StepEffect.seq_cases {s t : State} (h : StepEffect s t) :
    (t.seq = s.seq ∧ t.cLat = s.cLat ∧ t.x = s.x ∧ t.trace = s.trace) ∨ t.seq = Seq.idle ∨
      (∃ c, sendsWire s c ∧ t.seq = ⟨s.seq.op, s.seq.step + 1⟩ ∧ t.cLat = c.byte) ∨
      ∃ i k l, (i, k, l) ∈ quietMoves ∧ s.at i k ∧ t.at i l ∧ (k = 0 → PassedAdmission s i) := by
  have move : ∀ i k, (i, k, k + 1) ∈ quietMoves → s.at i k → (k = 0 → PassedAdmission s i) →
      t.seq = ⟨s.seq.op, s.seq.step + 1⟩ →
      ∃ i k l, (i, k, l) ∈ quietMoves ∧ s.at i k ∧ t.at i l ∧ (k = 0 → PassedAdmission s i) :=
    fun i k hm hat hp hseq => ⟨i, k, k + 1, hm, hat, at_succ hat hseq, hp⟩
  cases h
  case wait | delayOn => exact .inl ⟨rfl, rfl, rfl, rfl⟩
  case fail | reject => exact .inr (.inl (raise_seq _ _))
  case bhReady | lux | bmpReady | temp | press | idByte | statusByte | resetSent => exact .inr (.inl rfl)
  case wire c rest hw _ => exact .inr (.inr (.inl ⟨c, hw, rfl, rfl⟩))
  all_goals refine .inr (.inr (.inr ?_))
  case light hat _ _ => exact move .bhRead 2 (by decide) hat nofun rfl
  case calib hat hr _ _ => exact move .bmpInit 0 (by decide) hat (fun _ => hr) rfl
  case adcT hat hr _ _ =>
    rcases hat with hat | hat
    · exact move .bmpReadT 0 (by decide) hat (fun _ => hr) rfl
    · exact move .bmpReadP 0 (by decide) hat (fun _ => hr) rfl
  case adcP hat _ _ => exact move .bmpReadP 1 (by decide) hat nofun rfl
  case auxByte hat hr _ _ =>
    rcases hat with ⟨hat, -⟩ | ⟨hat, -⟩
    · exact move .bmpReadId 0 (by decide) hat (fun _ => hr) rfl
    · exact move .bmpReadStatus 0 (by decide) hat (fun _ => hr) rfl
  case store hw _ =>
    rcases hw with ⟨hat, -⟩ | ⟨hat, -⟩ | ⟨hat, hr, -⟩
    · exact move .bmpInit 2 (by decide) hat nofun rfl
    · exact move .bmpInit 3 (by decide) hat nofun rfl
    · exact move .bmpReset 0 (by decide) hat (fun _ => hr) rfl
  case delayOver hl _ =>
    rcases hl with ⟨hat | hat, -⟩ | ⟨hat, -⟩
    · exact move .bhInit 1 (by decide) hat nofun rfl
    · exact move .bhRead 1 (by decide) hat nofun rfl
    · exact move .bmpInit 1 (by decide) hat nofun rfl
  case skip hat hr _ => exact ⟨.bhRead, 0, 2, by decide, hat, ⟨hat.1, rfl⟩, fun _ => hr⟩

/-- The SCSE is in the delay step of BhSend (R134). -/
def AtSettle (s : State) : Prop := s.at .bhInit 1 ∨ s.at .bhRead 1

/-- A quiet move does not lead to the delay step of BhSend. -/
theorem not_atSettle_of_move {t : State} {i : Instr} {k l : Nat} (hm : (i, k, l) ∈ quietMoves)
    (hat : t.at i l) : ¬ AtSettle t := by
  obtain ⟨hi, -, hl, hc, hbh, hrd⟩ := quietMoves_spec hm
  rintro (h | h)
  · exact hbh ⟨at_instr_unique hi rfl hat h, at_step_unique (hl.trans hc) (by decide) hat h⟩
  · exact hrd ⟨at_instr_unique hi rfl hat h, at_step_unique (hl.trans hc) (by decide) hat h⟩

/-- At IDLE no delay step is in progress. -/
theorem not_atSettle_of_idle {t : State} (h : t.seq = Seq.idle) : ¬ AtSettle t :=
  fun hat => hat.elim (not_at_of_idle rfl h) (not_at_of_idle rfl h)

/-- At step s0 no delay step is in progress. -/
theorem not_atSettle_of_step_zero {t : State} (h : t.seq.step = 0#3) : ¬ AtSettle t := by
  rintro (hat | hat)
  · exact absurd (h.symm.trans hat.2) (by decide)
  · exact absurd (h.symm.trans hat.2) (by decide)

/-- The delay steps of BhSend are step s1 of BH_INIT and of BH_READ only. -/
theorem not_atSettle_of_at {s : State} {i : Instr} {k : Nat} (hat : s.at i k)
    (hne : (opcodeOf i ≠ 1#4 ∧ opcodeOf i ≠ 2#4) ∨ BitVec.ofNat 3 k ≠ 1#3) : ¬ AtSettle s := by
  rintro (h | h)
  · exact at_disjoint hat h (hne.imp_left And.left)
  · exact at_disjoint hat h (hne.imp_left And.right)

/-- The SCSE enters the delay step of BhSend by sending a wire command, and until the delay is over it
stays there with the latch and the trace as they were (R134). -/
theorem StepEffect.enters_settle {s t : State} (h : StepEffect s t) (hat : AtSettle t) :
    (t.seq = s.seq ∧ t.cLat = s.cLat ∧ t.trace = s.trace) ∨ ∃ c, sendsWire s c ∧ t.cLat = c.byte := by
  rcases h.seq_cases with ⟨hseq, hlat, -, htr⟩ | hidle | ⟨c, hw, -, hc⟩ | ⟨i, k, l, hm, -, hl, -⟩
  · exact .inl ⟨hseq, hlat, htr⟩
  · exact absurd hat (not_atSettle_of_idle hidle)
  · exact .inr ⟨c, hw, hc⟩
  · exact absurd hat (not_atSettle_of_move hm hl)

end Sys2Proof.Machine
end

section
/-! PROOFS. The invariant of the registers and the sequencer, part by part, through the host's effects and
those of the commands (10_state R26 to R39; 30_encoding R120). -/

namespace Sys2Proof.Machine

/-! ERR and ERRINFO (R31). -/

@[simp] theorem errCode_errInfoWord (op : BitVec 4) (c : BitVec 3) : errCode (errInfoWord op c) = c := by
  revert op c; decide

@[simp] theorem errOp_errInfoWord (op : BitVec 4) (c : BitVec 3) : errOp (errInfoWord op c) = op := by
  revert op c; decide

/-- The codes of the exceptions are 1 to 6 (R240). -/
theorem code_ne (e : Exc) : e.code ≠ 0#3 ∧ e.code ≠ 7#3 := by
  cases e <;> exact ⟨by rintro ⟨⟩, by rintro ⟨⟩⟩

/-- Only ArithOverflow has code 6 (R240). -/
theorem eq_arithOverflow_of_code {e : Exc} (h : e.code = 6#3) : e = .arithOverflow := by
  cases e
  case arithOverflow => rfl
  all_goals cases h

theorem errMatches_congr {s t : State} (hbusy : t.busy = s.busy) (hdone : t.done = s.done)
    (herr : t.err = s.err) (hinfo : t.errInfo = s.errInfo) (h : ErrMatches s) : ErrMatches t := by
  unfold ErrMatches
  rwa [hbusy, hdone, herr, hinfo]

/-- ERR set with the code of an exception, and the command ended (R248). -/
theorem errMatches_raised {t : State} {op : BitVec 4} {e : Exc} (hbusy : t.busy = false)
    (hdone : t.done = true) (herr : t.err = true) (hinfo : t.errInfo = errInfoWord op e.code) :
    ErrMatches t := by
  obtain ⟨h0, h7⟩ := code_ne e
  simp [ErrMatches, hbusy, hdone, herr, hinfo, h0, h7]

/-- ERR and ERRINFO cleared, and DONE clear while a command runs (R29). -/
theorem errMatches_cleared {t : State} (hdone : t.done = false) (herr : t.err = false)
    (hinfo : t.errInfo = 0) : ErrMatches t := by
  refine ⟨?_, ?_, ?_, ?_, ?_⟩
  · simp [herr, hinfo, errCode]
  · simp [hinfo, errCode]
  · rw [hinfo]
    decide
  · simp [hdone, herr]
  · simp [herr]

/-- A command in progress has BUSY set, so it has DONE and ERR clear (R27). -/
theorem err_false_of_running {s : State} (hbusy : BusyMatchesSeq s) (herr : ErrMatches s)
    (hne : s.seq ≠ Seq.idle) : s.busy = true ∧ s.err = false := by
  obtain ⟨-, -, -, hrun, -⟩ := herr
  have hb := hbusy.2 hne
  exact ⟨hb, (hrun hb).2⟩

theorem StepEffect.keeps_errMatches {s t : State} (h : StepEffect s t) (hne : s.seq ≠ Seq.idle)
    (hbusy : BusyMatchesSeq s) (hs : ErrMatches s) : ErrMatches t := by
  rcases h.outcome with hg | hc | ⟨e, hr, -⟩
  · exact errMatches_congr hg.busy hg.done hg.err hg.errInfo hs
  · obtain ⟨-, herr⟩ := err_false_of_running hbusy hs hne
    obtain ⟨hiff, h7, hfields, -, -⟩ := hs
    have herr' := hc.err.trans herr
    refine ⟨?_, ?_, ?_, ?_, ?_⟩
    · rwa [hc.err, hc.errInfo]
    · rwa [hc.errInfo]
    · rwa [hc.errInfo]
    · simp [hc.busy]
    · simp [herr']
  · exact errMatches_raised hr.busy hr.done hr.err hr.errInfo

theorem HostEffect.keeps_errMatches {s t : State} (h : HostEffect s t) (hs : ErrMatches s) :
    ErrMatches t := by
  cases h
  case keep | bhCfg | bmpCfg | read => exact hs
  case command => exact errMatches_cleared rfl rfl rfl
  case illegal => exact errMatches_raised rfl rfl rfl rfl
  case reset => exact errMatches_cleared rfl rfl rfl

/-! BUSY and SEQ (R26). -/

/-- A step of a command that does not end in IDLE goes on. -/
theorem StepEffect.goesOn {s t : State} (h : StepEffect s t) (hne : t.seq ≠ Seq.idle) : GoesOn s t := by
  rcases h.outcome with hg | hc | ⟨e, hr, -⟩
  · exact hg
  · exact absurd hc.seq hne
  · exact absurd hr.seq hne

theorem StepEffect.keeps_busyMatchesSeq {s t : State} (h : StepEffect s t) (hne : s.seq ≠ Seq.idle)
    (hop : s.seq.op ≠ 0#4) (hs : BusyMatchesSeq s) : BusyMatchesSeq t := by
  rcases h.outcome with hg | hc | ⟨e, hr, -⟩
  · have hne' : t.seq ≠ Seq.idle := fun h0 => hop (by rw [← hg.op, h0]; rfl)
    simp [BusyMatchesSeq, hg.busy, hs.2 hne, hne']
  · simp [BusyMatchesSeq, hc.busy, hc.seq]
  · simp [BusyMatchesSeq, hr.busy, hr.seq]

/-- SEQ at step s0 of an accepted command is not IDLE (R26, R29). -/
theorem seq_ne_idle_of_command {w : Word} {i : Instr} (h : decodeCmd w = some i) (k : BitVec 3) :
    (⟨opcodeOf i, k⟩ : Seq) ≠ Seq.idle :=
  fun h0 => opcodeOf_ne_zero (decodeCmd_isHost h) (congrArg Seq.op h0)

theorem HostEffect.keeps_busyMatchesSeq {s t : State} (h : HostEffect s t) (hs : BusyMatchesSeq s) :
    BusyMatchesSeq t := by
  cases h
  case keep | bhCfg | bmpCfg | read => exact hs
  case command w i l _ _ hd => simp [BusyMatchesSeq, seq_ne_idle_of_command hd]
  case illegal => simp [BusyMatchesSeq]
  case reset => simp [BusyMatchesSeq, applyReset, State.reset]

/-- While `BUSY = 0` SEQ is IDLE (R26). -/
theorem idle_of_not_busy {s : State} (hs : BusyMatchesSeq s) (hb : s.busy = false) : s.seq = Seq.idle := by
  by_contra hne
  rw [hs.2 hne] at hb
  cases hb

/-! SEQ (R26). -/

/-- Every instruction has a step. -/
theorem stepCount_pos (i : Instr) : 0 < stepCount i := by
  cases i <;> decide

theorem StepEffect.keeps_seqLegal {s t : State} (h : StepEffect s t) (hs : SeqLegal s) : SeqLegal t := by
  rcases h.seq_cases with ⟨hseq, -⟩ | hidle | ⟨c, hw, hseq, -⟩ | ⟨i, k, l, hm, -, hat, -⟩
  · unfold SeqLegal State.at at *
    rwa [hseq]
  · exact .inl hidle
  · rcases sendsWire_at hw with hat | hat
    · exact .inr ⟨.bhInit, 1, rfl, by decide, at_succ hat hseq⟩
    · exact .inr ⟨.bhRead, 1, rfl, by decide, at_succ hat hseq⟩
  · obtain ⟨hi, -, hl, -⟩ := quietMoves_spec hm
    exact .inr ⟨i, l, hi, hl, hat⟩

theorem HostEffect.keeps_seqLegal {s t : State} (h : HostEffect s t) (hs : SeqLegal s) : SeqLegal t := by
  cases h
  case keep | bhCfg | bmpCfg | read => exact hs
  case command w i l _ _ hd =>
    exact .inr ⟨i, 0, decodeCmd_isHost hd, stepCount_pos i, rfl, rfl⟩
  case illegal => exact .inl rfl
  case reset => exact .inl rfl

/-! The reserved bits (R33, R34, R35, R39). -/

/-- A masked word has no bit outside the mask. -/
theorem and_and_not (v m : Word) : v &&& m &&& ~~~m = 0#32 := by
  rw [BitVec.and_assoc]
  simp

/-- A value of `n` bits has no bit from `n` on. -/
theorem setWidth_and_high {n : Nat} (v : BitVec n) :
    v.setWidth 32 &&& (BitVec.allOnes 32 <<< n) = 0#32 := by
  ext k hk
  rcases Nat.lt_or_ge k n with h | h
  · simp [h]
  · simp [h]

/-- A light value has 16 bits (R35). -/
theorem light_reserved (v : BitVec 16) : v.zeroExtend 32 &&& 0xFFFF0000#32 = 0#32 :=
  setWidth_and_high v

/-- The fields of AUX are its ten low bits (R39). -/
theorem auxOfStatus_reserved (p : Params) (b : Byte) : auxOfStatus p b &&& 0xFFFFFC00#32 = 0#32 := by
  rw [auxOfStatus_eq_append]
  exact setWidth_and_high _

theorem auxOfId_reserved (b : Byte) : auxOfId b &&& 0xFFFFFC00#32 = 0#32 := by
  have hwide : auxOfId b = (b.setWidth 10).setWidth 32 := by
    ext k hk
    simp [auxOfId]
  rw [hwide]
  exact setWidth_and_high _

theorem reservedZero_reset : ReservedZero State.reset := by
  unfold ReservedZero
  decide

theorem StepEffect.keeps_reservedZero {s t : State} (h : StepEffect s t) (hs : ReservedZero s) :
    ReservedZero t := by
  obtain ⟨hbh, hbmp, hlux, haux⟩ := hs
  cases h
  case lux => exact ⟨hbh, hbmp, light_reserved _, haux⟩
  case idByte => exact ⟨hbh, hbmp, hlux, auxOfId_reserved _⟩
  case statusByte => exact ⟨hbh, hbmp, hlux, auxOfStatus_reserved _ _⟩
  case fail | reject => simp [ReservedZero, hbh, hbmp, hlux, haux]
  all_goals exact ⟨hbh, hbmp, hlux, haux⟩

theorem HostEffect.keeps_reservedZero {s t : State} (h : HostEffect s t) (hs : ReservedZero s) :
    ReservedZero t := by
  obtain ⟨hbh, hbmp, hlux, haux⟩ := hs
  cases h
  case bhCfg => exact ⟨and_and_not _ _, hbmp, hlux, haux⟩
  case bmpCfg => exact ⟨hbh, and_and_not _ _, hlux, haux⟩
  case reset => exact reservedZero_reset
  all_goals exact ⟨hbh, hbmp, hlux, haux⟩

/-! Admission (R120, R135, R160). -/

/-- Different commands have different opcodes (R92). -/
theorem opcodeOf_inj {i j : Instr} (hi : i.isHost = true) (hj : j.isHost = true)
    (h : opcodeOf i = opcodeOf j) : i = j :=
  Option.some.inj ((decodeOp_opcodeOf hi).symm.trans (h ▸ decodeOp_opcodeOf hj))

theorem isHost_of_isBmpRead {i : Instr} (h : isBmpRead i) : i.isHost = true := by
  rcases h with rfl | rfl | rfl | rfl | rfl <;> rfl

theorem mem_bmpReads_iff {i : Instr} :
    i ∈ [Instr.bmpReadT, .bmpReadP, .bmpReadId, .bmpReadStatus, .bmpReset] ↔ isBmpRead i := by
  simp [isBmpRead]

theorem passedAdmission_bmpRead {s : State} {i : Instr} (h : isBmpRead i) :
    PassedAdmission s i ↔ s.bmpReady = true := by
  rcases h with rfl | rfl | rfl | rfl | rfl <;> rfl

/-- The commands past their admission, said once for all (R120, R135, R160). -/
theorem admitted_iff {s : State} :
    Admitted s ↔
      (s.bhReady = true → bhRes s.bhCfg ≠ 0b10#2) ∧
      (∀ i, i.isHost = true → s.seq.op = opcodeOf i → s.seq.step ≠ 0#3 → PassedAdmission s i) ∧
      (s.at .bhRead 1 → bhOneTime s.bhCfg = true) := by
  constructor
  · rintro ⟨hres, hinit, hread, hone, hbmp, hreads⟩
    refine ⟨hres, fun i hi hop hstep => ?_, hone⟩
    cases i
    case bhInit => exact hinit hop hstep
    case bhRead => exact hread hop hstep
    case bmpInit => exact hbmp hop hstep
    case bmpReadT | bmpReadP | bmpReadId | bmpReadStatus | bmpReset =>
      exact hreads _ (by decide) hop hstep
    all_goals exact absurd hi (by decide)
  · rintro ⟨hres, hpass, hone⟩
    refine ⟨hres, hpass .bhInit rfl, hpass .bhRead rfl, hone, hpass .bmpInit rfl,
      fun i hi hop hstep => ?_⟩
    have hr := mem_bmpReads_iff.1 hi
    exact (passedAdmission_bmpRead hr).1 (hpass i (isHost_of_isBmpRead hr) hop hstep)

theorem passedAdmission_congr {s t : State} {i : Instr} (hbh : t.bhReady = s.bhReady)
    (hbmp : t.bmpReady = s.bmpReady) (hcfg : t.bhCfg = s.bhCfg) (h : PassedAdmission s i) :
    PassedAdmission t i := by
  cases i
  case bhInit => exact ⟨hbh.trans h.1, hcfg ▸ h.2⟩
  case bhRead => exact hbh.trans h
  case bmpInit | bmpReadT | bmpReadP | bmpReadId | bmpReadStatus | bmpReset => exact hbmp.trans h
  all_goals trivial

/-- Sending a wire command is past admission (R130, R135). -/
theorem passedAdmission_of_sendsWire {s : State} {c : WireCmd} {i : Instr} (hi : i.isHost = true)
    (hop : s.seq.op = opcodeOf i) (h : sendsWire s c) : PassedAdmission s i := by
  rcases h with ⟨hat, hr, hc⟩ | ⟨hat, hr, -, -⟩
  · obtain rfl : i = .bhInit := opcodeOf_inj hi rfl (hop.symm.trans hat.1)
    exact ⟨hr, res_ne_of_cmdSelect hc⟩
  · obtain rfl : i = .bhRead := opcodeOf_inj hi rfl (hop.symm.trans hat.1)
    exact hr

/-- A command at a later step than s0 is past admission, before the step as after it (R135, R160). -/
theorem StepEffect.keeps_passedAdmission {s t : State} (h : StepEffect s t)
    (hs : ∀ i, i.isHost = true → s.seq.op = opcodeOf i → s.seq.step ≠ 0#3 → PassedAdmission s i)
    {i : Instr} (hi : i.isHost = true) (hop : t.seq.op = opcodeOf i) (hstep : t.seq.step ≠ 0#3) :
    PassedAdmission t i := by
  have hg := h.goesOn fun h0 => op_ne_of_idle hi h0 hop
  have hop' : s.seq.op = opcodeOf i := hg.op.symm.trans hop
  refine passedAdmission_congr hg.bhReady hg.bmpReady h.frame.1 ?_
  rcases h.seq_cases with ⟨hseq, -⟩ | hidle | ⟨c, hw, -, -⟩ | ⟨j, k, l, hm, hat, -, hp⟩
  · exact hs i hi hop' (hseq ▸ hstep)
  · exact absurd hop (op_ne_of_idle hi hidle)
  · exact passedAdmission_of_sendsWire hi hop' hw
  · obtain ⟨hj, hkl, hl, hc, -, -⟩ := quietMoves_spec hm
    obtain rfl : i = j := opcodeOf_inj hi hj (hop'.symm.trans hat.1)
    rcases Nat.eq_zero_or_pos k with hk | hk
    · exact hp hk
    · refine hs i hi hop' fun h0 => ?_
      have hk' := at_step (by omega) hat
      rw [h0] at hk'
      exact hk.ne hk'

theorem at_of_seq_eq {s t : State} {i : Instr} {k : Nat} (h : t.seq = s.seq) : t.at i k ↔ s.at i k := by
  unfold State.at
  rw [h]

/-- BH_READ enters its delay step in one-time mode only (R137). -/
theorem oneTime_of_sendsWire {s : State} {c : WireCmd} (hop : s.seq.op = opcodeOf .bhRead)
    (h : sendsWire s c) : bhOneTime s.bhCfg = true ∧ trigSelect (bhRes s.bhCfg) = some c := by
  rcases h with ⟨hat, -⟩ | ⟨-, -, ho, hc⟩
  · exact absurd (hop.symm.trans hat.1) (by decide)
  · exact ⟨ho, hc⟩

theorem StepEffect.keeps_admitted {s t : State} (h : StepEffect s t) (hs : Admitted s) : Admitted t := by
  obtain ⟨hres, hpass, hone⟩ := admitted_iff.1 hs
  obtain ⟨hcfg, -, -, -⟩ := h.frame
  refine admitted_iff.2 ⟨fun hready => ?_, fun i => h.keeps_passedAdmission hpass, fun hat => ?_⟩
  · rw [hcfg]
    rcases h.ready_cases.1 with hsame | hinit
    · exact hres (hsame ▸ hready)
    · exact (hpass .bhInit rfl hinit.1 (by rw [hinit.2]; decide)).2
  · have hop : s.seq.op = opcodeOf .bhRead := (h.goesOn (at_ne_idle rfl hat)).op.symm.trans hat.1
    rw [hcfg]
    rcases h.enters_settle (.inr hat) with ⟨hseq, -, -⟩ | ⟨c, hw, -⟩
    · exact hone ((at_of_seq_eq hseq).1 hat)
    · exact (oneTime_of_sendsWire hop hw).1

/-- At IDLE only the resolution of a constructed BH1750 is claimed (R120). -/
theorem admitted_of_idle {s : State} (h : s.seq = Seq.idle)
    (hres : s.bhReady = true → bhRes s.bhCfg ≠ 0b10#2) : Admitted s :=
  admitted_iff.2 ⟨hres, fun _ hi hop => absurd hop (op_ne_of_idle hi h),
    fun hat => absurd hat (not_at_of_idle rfl h)⟩

/-- At step s0 of a command nothing more is claimed. -/
theorem admitted_of_step_zero {s : State} (h : s.seq.step = 0#3)
    (hres : s.bhReady = true → bhRes s.bhCfg ≠ 0b10#2) : Admitted s :=
  admitted_iff.2 ⟨hres, fun _ _ _ hstep => absurd h hstep,
    fun hat => absurd (h.symm.trans hat.2) (by decide)⟩

theorem HostEffect.keeps_admitted {s t : State} (h : HostEffect s t) (hb : BusyMatchesSeq s)
    (hs : Admitted s) : Admitted t := by
  have hres := hs.1
  cases h
  case keep | read => exact hs
  case command => exact admitted_of_step_zero rfl hres
  case illegal => exact admitted_of_idle rfl hres
  case bhCfg v l hr hbusy =>
    exact admitted_of_idle (idle_of_not_busy hb hbusy) fun h => absurd (hr.symm.trans h) (by decide)
  case bmpCfg v l _ hbusy => exact admitted_of_idle (idle_of_not_busy hb hbusy) hres
  case reset => exact admitted_of_idle rfl nofun

/-! The latch of the wire command (R134). -/

theorem latchMatches_of_not_atSettle {s : State} (h : ¬ AtSettle s) : LatchMatches s :=
  ⟨fun hat => absurd (.inl hat) h, fun hat => absurd (.inr hat) h⟩

theorem StepEffect.keeps_latchMatches {s t : State} (h : StepEffect s t) (hs : LatchMatches s) :
    LatchMatches t := by
  by_cases hat : AtSettle t
  · obtain ⟨hcfg, -, -, -⟩ := h.frame
    rcases h.enters_settle hat with ⟨hseq, hlat, -⟩ | ⟨c, hw, hlat⟩
    · unfold LatchMatches
      rwa [at_of_seq_eq hseq, at_of_seq_eq hseq, hcfg, hlat]
    · refine ⟨fun hi => ?_, fun hr => ?_⟩
      · have hop : s.seq.op = opcodeOf .bhInit := (h.goesOn (at_ne_idle rfl hi)).op.symm.trans hi.1
        rw [hcfg, hlat]
        rcases hw with ⟨-, -, hc⟩ | ⟨hat', -⟩
        · rw [hc]
          rfl
        · exact absurd (hop.symm.trans hat'.1) (by decide)
      · have hop : s.seq.op = opcodeOf .bhRead := (h.goesOn (at_ne_idle rfl hr)).op.symm.trans hr.1
        rw [hcfg, hlat, (oneTime_of_sendsWire hop hw).2]
        rfl
  · exact latchMatches_of_not_atSettle hat

theorem HostEffect.keeps_latchMatches {s t : State} (h : HostEffect s t) (hb : BusyMatchesSeq s)
    (hs : LatchMatches s) : LatchMatches t := by
  cases h
  case keep | read => exact hs
  case command => exact latchMatches_of_not_atSettle (not_atSettle_of_step_zero rfl)
  case bhCfg v l hr hbusy =>
    exact latchMatches_of_not_atSettle (not_atSettle_of_idle (idle_of_not_busy hb hbusy))
  case bmpCfg => exact hs
  case illegal | reset => exact latchMatches_of_not_atSettle (not_atSettle_of_idle rfl)

/-! The whole invariant. -/

theorem StepEffect.keeps_regInv {s t : State} (h : StepEffect s t) (hne : s.seq ≠ Seq.idle)
    (hop : s.seq.op ≠ 0#4) (hs : RegInv s) : RegInv t := by
  obtain ⟨hseq, hbusy, herr, hres, hadm, hlat⟩ := hs
  exact ⟨h.keeps_seqLegal hseq, h.keeps_busyMatchesSeq hne hop hbusy, h.keeps_errMatches hne hbusy herr,
    h.keeps_reservedZero hres, h.keeps_admitted hadm, h.keeps_latchMatches hlat⟩

theorem HostEffect.keeps_regInv {s t : State} (h : HostEffect s t) (hs : RegInv s) : RegInv t := by
  obtain ⟨hseq, hbusy, herr, hres, hadm, hlat⟩ := hs
  exact ⟨h.keeps_seqLegal hseq, h.keeps_busyMatchesSeq hbusy, h.keeps_errMatches herr,
    h.keeps_reservedZero hres, h.keeps_admitted hbusy hadm, h.keeps_latchMatches hbusy hlat⟩

end Sys2Proof.Machine
end

section
/-! PROOFS. The statement about the invariant of the registers and the sequencer. -/

open Sys2Proof Sys2Proof.Machine

namespace Sys2Proof.Proofs

/-- Settles O51: each part of the invariant through the effects of a step. -/
theorem stepKeepsRegInv : Obligations.StepKeepsRegInv :=
  step_keeps (fun _ _ h => h) (fun _ _ => HostEffect.keeps_regInv) fun _ _ => StepEffect.keeps_regInv

end Sys2Proof.Proofs
end

section
/-! PROOFS. What a step of a command adds to the trace, and the transaction it makes (20_memory R61, R70). -/

namespace Sys2Proof.Machine

/-- The transactions that the steps of the commands make (R136, R137, R166 to R171). -/
inductive MadeTxn (s : State) : Txn → Prop
  | wire (c : WireCmd) : sendsWire s c → MadeTxn s (.write (bhAddr s.bhCfg) [c.byte])
  | light : s.at .bhRead 2 → MadeTxn s (.read (bhAddr s.bhCfg) 2)
  | calib : s.at .bmpInit 0 → MadeTxn s (memRead s .calib 24)
  | temp : s.at .bmpReadT 0 ∨ s.at .bmpReadP 0 → MadeTxn s (memRead s .temp 3)
  | press : s.at .bmpReadP 1 → MadeTxn s (memRead s .press 3)
  | auxByte (r : BmpReg) : s.at .bmpReadId 0 ∧ r = .id ∨ s.at .bmpReadStatus 0 ∧ r = .status →
      MadeTxn s (memRead s r 1)
  | store (r : BmpReg) (v : Byte) : storesReg s r v → MadeTxn s (memWrite s r v)

theorem madeTxn_of_stepTxn {s : State} {t : Txn} (h : stepTxn s = some t) : MadeTxn s t := by
  have hat {i : Instr} {k : Nat} (hf : fetch s = .run i) (hk : s.seq.step.toNat = k) : s.at i k :=
    at_of_step (fetch_run hf).2.1 hk
  unfold stepTxn at h
  split at h
  · next hf hk =>
    split at h
    · cases h
    · next hr =>
      obtain ⟨c, hc, rfl⟩ := Option.map_eq_some_iff.1 h
      exact .wire c (.inl ⟨hat hf hk, by simpa using hr, hc⟩)
  · next hf hk =>
    split at h
    · next hr =>
      obtain ⟨hr, ho⟩ := Bool.and_eq_true_iff.1 hr
      obtain ⟨c, hc, rfl⟩ := Option.map_eq_some_iff.1 h
      exact .wire c (.inr ⟨hat hf hk, hr, ho, hc⟩)
    · cases h
  · next hf hk =>
    cases h
    exact .light (hat hf hk)
  · next hf hk =>
    split at h <;> cases h
    exact .calib (hat hf hk)
  · next hf hk =>
    cases h
    exact .store .ctrl _ (.inl ⟨hat hf hk, rfl, rfl⟩)
  · next hf hk =>
    cases h
    exact .store .config _ (.inr (.inl ⟨hat hf hk, rfl, rfl⟩))
  · next hf hk =>
    split at h <;> cases h
    exact .temp (.inl (hat hf hk))
  · next hf hk =>
    split at h <;> cases h
    exact .temp (.inr (hat hf hk))
  · next hf hk =>
    cases h
    exact .press (hat hf hk)
  · next hf hk =>
    split at h <;> cases h
    exact .auxByte .id (.inl ⟨hat hf hk, rfl⟩)
  · next hf hk =>
    split at h <;> cases h
    exact .auxByte .status (.inr ⟨hat hf hk, rfl⟩)
  · next hf hk =>
    split at h
    · next hr =>
      cases h
      exact .store .reset _ (.inr (.inr ⟨hat hf hk, hr, rfl, rfl⟩))
    · cases h
  · cases h

/-- A wire command that a step sends is one of the seven of R120. -/
theorem isSentWireByte_of_sendsWire {s : State} {c : WireCmd} (h : sendsWire s c) :
    isSentWireByte c.byte = true := by
  rcases h with ⟨-, -, hc⟩ | ⟨-, -, -, hc⟩
  · exact isSentWireByte_cmdSelect hc
  · exact isSentWireByte_trigSelect hc

/-- Every transaction that a step makes is in the table of R70. -/
theorem MadeTxn.listed {s : State} {t : Txn} (h : MadeTxn s t) : t.listed = true := by
  cases h
  case wire c hw => simp [Txn.listed, isBhAddr_bhAddr, isSentWireByte_of_sendsWire hw]
  case light => simp [Txn.listed, isBhAddr_bhAddr]
  case calib | temp | press => simp [memRead, Txn.listed, isBmpAddr_bmpAddr]
  case auxByte r hr => rcases hr with ⟨-, rfl⟩ | ⟨-, rfl⟩ <;> simp [memRead, Txn.listed, isBmpAddr_bmpAddr]
  case store r v hw =>
    rcases hw with ⟨-, rfl, -⟩ | ⟨-, rfl, -⟩ | ⟨-, -, rfl, -⟩ <;>
      simp [memWrite, Txn.listed, isBmpAddr_bmpAddr]

/-- No transaction is made in the delay step of BhSend (R134). -/
theorem MadeTxn.not_atSettle {s : State} {t : Txn} (h : MadeTxn s t) : ¬ AtSettle s := by
  cases h
  case wire c hw =>
    rcases sendsWire_at hw with hat | hat
    · exact not_atSettle_of_at hat (by decide)
    · exact not_atSettle_of_at hat (by decide)
  case light hat => exact not_atSettle_of_at hat (by decide)
  case calib hat => exact not_atSettle_of_at hat (by decide)
  case temp hat =>
    rcases hat with hat | hat
    · exact not_atSettle_of_at hat (by decide)
    · exact not_atSettle_of_at hat (by decide)
  case press hat => exact not_atSettle_of_at hat (by decide)
  case auxByte r hat =>
    rcases hat with ⟨hat, -⟩ | ⟨hat, -⟩
    · exact not_atSettle_of_at hat (by decide)
    · exact not_atSettle_of_at hat (by decide)
  case store r v hw =>
    rcases hw with ⟨hat, -⟩ | ⟨hat, -⟩ | ⟨hat, -⟩
    · exact not_atSettle_of_at hat (by decide)
    · exact not_atSettle_of_at hat (by decide)
    · exact not_atSettle_of_at hat (by decide)

/-- The event that the step of a command from `s` to `t` leaves in the trace. -/
inductive StepEvent (s t : State) : BusEvent → Prop
  | wire (c : WireCmd) : sendsWire s c → AtSettle t → t.cLat = c.byte →
      StepEvent s t (.txn (.write (bhAddr s.bhCfg) [c.byte]) (.ok []))
  | ok (u : Txn) (bs : List Byte) : MadeTxn s u → bs.length = u.rxLen → (∀ a c, u ≠ .write a [c]) →
      StepEvent s t (.txn u (.ok bs))
  | err (u : Txn) (k : BusErr) : MadeTxn s u → StepEvent s t (.txn u (.err k))
  | delay (n : Nat) : delayLabel s n → StepEvent s t (.delay n)

/-- What a step of a command leaves on the bus: nothing new, perhaps a transaction in flight; or one event,
with nothing in flight but what was before. -/
theorem StepEffect.trace_cases {s t : State} (h : StepEffect s t) :
    (t.trace = s.trace ∧ (t.inflight = s.inflight ∨ ∃ u, MadeTxn s u ∧ t.inflight = some u)) ∨
      ∃ e, StepEvent s t e ∧ t.trace = e :: s.trace ∧ (t.inflight = s.inflight ∨ t.inflight = none) := by
  cases h
  case wait u hu _ => exact .inl ⟨rfl, .inr ⟨u, madeTxn_of_stepTxn hu, rfl⟩⟩
  case delayOn | skip | bhReady | lux | bmpReady | temp | press | idByte | statusByte | resetSent =>
    exact .inl ⟨rfl, .inl rfl⟩
  case reject => exact .inl ⟨raise_trace _ _, .inl (raise_inflight _ _)⟩
  all_goals refine .inr ?_
  case fail u k rest c hu _ =>
    exact ⟨_, .err u k (madeTxn_of_stepTxn hu), raise_trace _ _, .inr (raise_inflight _ _)⟩
  case wire c rest hw _ =>
    refine ⟨_, .wire c hw ?_ rfl, rfl, .inr rfl⟩
    exact (sendsWire_at hw).imp (fun hat => at_succ hat rfl) fun hat => at_succ hat rfl
  case light bs rest hat _ hl => exact ⟨_, .ok _ bs (.light hat) hl nofun, rfl, .inr rfl⟩
  case calib bs rest hat _ _ hl => exact ⟨_, .ok _ bs (.calib hat) hl nofun, rfl, .inr rfl⟩
  case adcT bs rest hat _ _ hl => exact ⟨_, .ok _ bs (.temp hat) hl nofun, rfl, .inr rfl⟩
  case adcP bs rest hat _ hl => exact ⟨_, .ok _ bs (.press hat) hl nofun, rfl, .inr rfl⟩
  case auxByte r bs rest hat _ _ hl => exact ⟨_, .ok _ bs (.auxByte r hat) hl nofun, rfl, .inr rfl⟩
  case store r v rest hw _ => exact ⟨_, .ok _ [] (.store r v hw) rfl (by simp [memWrite]), rfl, .inr rfl⟩
  case delayOver n hn _ => exact ⟨_, .delay n hn, rfl, .inl rfl⟩

/-- What the host's side leaves on the bus: nothing, or the mark of a reset with what it cut (R270). -/
theorem HostEffect.trace_cases {s t : State} (h : HostEffect s t) :
    (t.trace = s.trace ∧ t.inflight = s.inflight) ∨
      (t.trace = .reset s.inflight :: s.trace ∧ t.inflight = none ∧ t.seq = Seq.idle) := by
  cases h
  case reset => exact .inr ⟨rfl, rfl, rfl⟩
  all_goals exact .inl ⟨rfl, rfl⟩

/-! The table of R70 over the trace. -/

theorem StepEvent.eventListed {s t : State} {e : BusEvent} (h : StepEvent s t e) : EventListed e := by
  cases h
  case wire c hw _ _ => exact ⟨(MadeTxn.wire c hw).listed, rfl⟩
  case ok u bs hu hl _ => exact ⟨hu.listed, hl⟩
  case err u k hu => exact hu.listed
  case delay => trivial

theorem StepEffect.keeps_traceListed {s t : State} (h : StepEffect s t) (hs : TraceListed s) :
    TraceListed t := by
  obtain ⟨htr, hfl⟩ := hs
  rcases h.trace_cases with ⟨htr', hfl' | ⟨u, hu, hfl'⟩⟩ | ⟨e, he, htr', hfl' | hfl'⟩
  · exact ⟨htr'.symm ▸ htr, hfl'.symm ▸ hfl⟩
  · exact ⟨htr'.symm ▸ htr, by simpa [hfl'] using hu.listed⟩
  · refine ⟨?_, hfl'.symm ▸ hfl⟩
    simpa [htr'] using ⟨he.eventListed, htr⟩
  · refine ⟨?_, by simp [hfl']⟩
    simpa [htr'] using ⟨he.eventListed, htr⟩

theorem HostEffect.keeps_traceListed {s t : State} (h : HostEffect s t) (hs : TraceListed s) :
    TraceListed t := by
  obtain ⟨htr, hfl⟩ := hs
  rcases h.trace_cases with ⟨htr', hfl'⟩ | ⟨htr', hfl', -⟩
  · exact ⟨htr'.symm ▸ htr, hfl'.symm ▸ hfl⟩
  · have hmark : EventListed (.reset s.inflight) := by
      cases hi : s.inflight with
      | none => trivial
      | some u => exact hfl u hi
    refine ⟨?_, by simp [hfl']⟩
    simpa [htr'] using ⟨hmark, htr⟩

/-! The settle delay after each wire command that was taken (R134). -/

/-- The events of a step that is not the end of a delay. -/
theorem StepEvent.delay_of_atSettle {s t : State} {e : BusEvent} (h : StepEvent s t e)
    (hat : AtSettle s) : ∃ n, settleMs s.cLat = some n ∧ e = .delay n := by
  cases h
  case wire c hw _ _ => exact absurd hat (MadeTxn.wire c hw).not_atSettle
  case ok u _ hu _ _ => exact absurd hat hu.not_atSettle
  case err u _ hu => exact absurd hat hu.not_atSettle
  case delay n hn =>
    rcases hn with ⟨-, hn⟩ | ⟨hat', -⟩
    · exact ⟨n, hn, rfl⟩
    · rcases hat with hat | hat
      · exact (at_disjoint hat' hat (by decide)).elim
      · exact (at_disjoint hat' hat (by decide)).elim

/-- A wire command is taken only in the step that leads to its delay step. -/
theorem StepEvent.settling_of_wireOk {s t : State} {e : BusEvent} {c : Byte} (h : StepEvent s t e)
    (hw : IsWireOk e c) : SettlingAfter t c := by
  obtain ⟨a, -, rfl⟩ := hw
  cases h
  case wire c' _ hat hlat => exact ⟨hat, hlat⟩
  case ok _ hne _ => exact absurd rfl (hne a c)

/-- A command is rejected, or overflows, in no delay step (R135, R160, R195). -/
theorem not_atSettle_of_reject {s : State} {e : Exc}
    (hwhy : s.at .bhInit 0 ∧ s.bhReady = true ∧ e = .alreadyInit ∨
      s.at .bhInit 0 ∧ s.bhReady = false ∧ bhRes s.bhCfg = 0b10#2 ∧ e = .illegalConfig ∨
      s.at .bhRead 0 ∧ s.bhReady = false ∧ e = .notReady ∨
      s.at .bmpInit 0 ∧ s.bmpReady = true ∧ e = .alreadyInit ∨
      (∃ i, isBmpRead i ∧ s.at i 0) ∧ s.bmpReady = false ∧ e = .notReady ∨
      (s.at .bmpReadT 1 ∨ s.at .bmpReadP 2) ∧ s.params.ovfMode = .fault ∧ e = .arithOverflow) :
    ¬ AtSettle s := by
  rcases hwhy with ⟨hat, -⟩ | ⟨hat, -⟩ | ⟨hat, -⟩ | ⟨hat, -⟩ | ⟨⟨i, -, hat⟩, -⟩ | ⟨hat | hat, -⟩
  · exact not_atSettle_of_at hat (by decide)
  · exact not_atSettle_of_at hat (by decide)
  · exact not_atSettle_of_at hat (by decide)
  · exact not_atSettle_of_at hat (by decide)
  · exact not_atSettle_of_at hat (.inr (by decide))
  · exact not_atSettle_of_at hat (by decide)
  · exact not_atSettle_of_at hat (by decide)

/-- A step in the delay step of BhSend stays there with latch and trace, or ends it with its label. -/
theorem StepEffect.of_atSettle {s t : State} (h : StepEffect s t) (hat : AtSettle s) :
    (t.seq = s.seq ∧ t.cLat = s.cLat ∧ t.trace = s.trace) ∨
      ∃ n, settleMs s.cLat = some n ∧ t.trace = .delay n :: s.trace := by
  rcases h.trace_cases with ⟨htr, -⟩ | ⟨e, he, htr, -⟩
  · refine .inl ?_
    cases h
    case wait | delayOn => exact ⟨rfl, rfl, rfl⟩
    case reject hwhy => exact absurd hat (not_atSettle_of_reject hwhy)
    case skip | bhReady | lux | bmpReady | temp | press | idByte | statusByte | resetSent =>
      refine absurd hat (not_atSettle_of_at (by assumption) ?_)
      decide
    case fail u k rest c _ _ =>
      exact absurd ((raise_trace _ _).symm.trans htr) (List.cons_ne_self _ _)
    all_goals exact absurd htr (List.cons_ne_self _ _)
  · obtain ⟨n, hn, rfl⟩ := he.delay_of_atSettle hat
    exact .inr ⟨n, hn, htr⟩

theorem traceSettles_cons {new : BusEvent} {tr : List BusEvent} (h : TraceSettles tr)
    (hnext : ∀ e rest, tr = e :: rest → SettleNext e new) : TraceSettles (new :: tr) := by
  cases tr with
  | nil => trivial
  | cons e rest => exact ⟨hnext e rest rfl, h⟩

/-- The mark of a reset is no wire command. -/
theorem not_isWireOk_reset (cut : Option Txn) (c : Byte) : ¬ IsWireOk (.reset cut) c := by
  rintro ⟨a, -, h⟩
  cases h

theorem SettlingAfter.atSettle {s : State} {c : Byte} (h : SettlingAfter s c) : AtSettle s := h.1

theorem StepEffect.keeps_settleInv {s t : State} (h : StepEffect s t) (hne : s.seq ≠ Seq.idle)
    (hop : s.seq.op ≠ 0#4) (hs : SettleInv s) : SettleInv t := by
  obtain ⟨hbusy, htr, hnew⟩ := hs
  refine ⟨h.keeps_busyMatchesSeq hne hop hbusy, ?_⟩
  rcases h.trace_cases with ⟨htr', -⟩ | ⟨e, he, htr', -⟩
  · rw [htr']
    refine ⟨htr, fun e rest c he hw => ?_⟩
    have hsettle := hnew e rest c he hw
    rcases h.of_atSettle hsettle.atSettle with ⟨hseq, hlat, -⟩ | ⟨n, -, hdelay⟩
    · exact ⟨by rw [at_of_seq_eq hseq, at_of_seq_eq hseq]; exact hsettle.1, hlat.trans hsettle.2⟩
    · exact absurd (hdelay.symm.trans htr') (List.cons_ne_self _ _)
  · rw [htr']
    refine ⟨traceSettles_cons htr fun old rest hold c hw => .inl ?_, fun e' rest c he' hw => ?_⟩
    · have hsettle := hnew old rest c hold hw
      obtain ⟨n, hn, rfl⟩ := he.delay_of_atSettle hsettle.atSettle
      exact ⟨n, hsettle.2 ▸ hn, rfl⟩
    · obtain rfl : e = e' := (List.cons.inj he').1
      exact he.settling_of_wireOk hw

/-- While `BUSY = 0` no wire command is the newest event. -/
theorem not_wireOk_of_not_busy {s : State} (hs : SettleInv s) (hb : s.busy = false) {e : BusEvent}
    {rest : List BusEvent} {c : Byte} (he : s.trace = e :: rest) : ¬ IsWireOk e c :=
  fun hw => not_atSettle_of_idle (idle_of_not_busy hs.1 hb) (hs.2.2 e rest c he hw).atSettle

theorem HostEffect.keeps_settleInv {s t : State} (h : HostEffect s t) (hs : SettleInv s) :
    SettleInv t := by
  have hbusy := h.keeps_busyMatchesSeq hs.1
  have hs' := hs
  obtain ⟨-, htr, hnew⟩ := hs'
  cases h
  case keep | read | bhCfg | bmpCfg => exact ⟨hbusy, htr, hnew⟩
  case command w i l _ hb _ =>
    exact ⟨hbusy, htr, fun e rest c he hw => absurd hw (not_wireOk_of_not_busy hs hb he)⟩
  case illegal w l _ hb _ =>
    exact ⟨hbusy, htr, fun e rest c he hw => absurd hw (not_wireOk_of_not_busy hs hb he)⟩
  case reset =>
    refine ⟨hbusy, traceSettles_cons htr fun e rest _ c _ => .inr ⟨_, rfl⟩, fun e rest c he hw => ?_⟩
    obtain rfl : BusEvent.reset s.inflight = e := (List.cons.inj he).1
    exact absurd hw (not_isWireOk_reset _ c)

/-! The temperature read before the pressure read (R75). -/

/-- A pressure read is made at step s1 of BMP_READ_P only (R168). -/
theorem at_of_isPressRead {s t : State} {e : BusEvent} (h : StepEvent s t e) (hp : IsPressRead e) :
    s.at .bmpReadP 1 := by
  have made {u : Txn} (hu : MadeTxn s u) {a : DevAddr} (hp : u = .writeRead a [0xF7#8] 3) :
      s.at .bmpReadP 1 := by
    cases hu
    case press hat => exact hat
    case auxByte r hr => rcases hr with ⟨-, rfl⟩ | ⟨-, rfl⟩ <;> cases hp
    all_goals cases hp
  obtain ⟨a, ans, rfl⟩ := hp
  cases h
  case ok hu _ _ => exact made hu rfl
  case err hu => exact made hu rfl

/-- Step s1 of BMP_READ_P is entered with the temperature frame received (R168). -/
theorem StepEffect.enters_pressRead {s t : State} (h : StepEffect s t) (hat : t.at .bmpReadP 1) :
    (s.at .bmpReadP 1 ∧ t.trace = s.trace) ∨ ∃ e, t.trace = e :: s.trace ∧ IsTempOk e := by
  cases h
  case wait | delayOn => exact .inl ⟨hat, rfl⟩
  case adcT bs rest _ _ _ _ => exact .inr ⟨_, rfl, _, bs, rfl⟩
  case fail | reject => exact absurd hat (not_at_of_idle rfl (raise_seq _ _))
  case bhReady | lux | bmpReady | temp | press | idByte | statusByte | resetSent =>
    exact absurd hat (not_at_of_idle rfl rfl)
  case light | calib | adcP =>
    refine absurd hat (not_at_of_succ (by assumption) rfl ?_)
    decide
  case wire c rest hw _ =>
    rcases sendsWire_at hw with hs | hs
    · exact absurd hat (not_at_of_succ hs rfl (by decide))
    · exact absurd hat (not_at_of_succ hs rfl (by decide))
  case auxByte hs _ _ _ =>
    rcases hs with ⟨hs, -⟩ | ⟨hs, -⟩
    · exact absurd hat (not_at_of_succ hs rfl (by decide))
    · exact absurd hat (not_at_of_succ hs rfl (by decide))
  case store hw _ =>
    rcases hw with ⟨hs, -⟩ | ⟨hs, -⟩ | ⟨hs, -⟩
    · exact absurd hat (not_at_of_succ hs rfl (by decide))
    · exact absurd hat (not_at_of_succ hs rfl (by decide))
    · exact absurd hat (not_at_of_succ hs rfl (by decide))
  case delayOver hl _ =>
    rcases hl with ⟨hs | hs, -⟩ | ⟨hs, -⟩
    · exact absurd hat (not_at_of_succ hs rfl (by decide))
    · exact absurd hat (not_at_of_succ hs rfl (by decide))
    · exact absurd hat (not_at_of_succ hs rfl (by decide))
  case skip hs _ _ => exact absurd (hs.1.symm.trans hat.1) (by decide)

theorem tempBeforePress_cons {new : BusEvent} {tr : List BusEvent} (h : TempBeforePress tr)
    (hnew : IsPressRead new → ∃ e rest, tr = e :: rest ∧ IsTempOk e) : TempBeforePress (new :: tr) := by
  cases tr with
  | nil =>
    intro hp
    obtain ⟨e, rest, he, -⟩ := hnew hp
    cases he
  | cons e rest =>
    refine ⟨fun hp => ?_, h⟩
    obtain ⟨e', rest', he, hok⟩ := hnew hp
    exact (List.cons.inj he).1 ▸ hok

theorem StepEffect.keeps_pairingInv {s t : State} (h : StepEffect s t) (hs : PairingInv s) :
    PairingInv t := by
  obtain ⟨htr, hnew⟩ := hs
  refine ⟨?_, fun hat => ?_⟩
  · rcases h.trace_cases with ⟨htr', -⟩ | ⟨e, he, htr', -⟩
    · rwa [htr']
    · rw [htr']
      exact tempBeforePress_cons htr fun hp => hnew (at_of_isPressRead he hp)
  · rcases h.enters_pressRead hat with ⟨hat', htr'⟩ | ⟨e, htr', he⟩
    · rw [htr']
      exact hnew hat'
    · exact ⟨e, s.trace, htr', he⟩

theorem HostEffect.keeps_pairingInv {s t : State} (h : HostEffect s t) (hs : PairingInv s) :
    PairingInv t := by
  obtain ⟨htr, hnew⟩ := hs
  cases h
  case keep | read | bhCfg | bmpCfg => exact ⟨htr, hnew⟩
  case command w i l _ _ _ => exact ⟨htr, fun hat => absurd hat (not_at_of_step_zero rfl (by decide))⟩
  case illegal => exact ⟨htr, fun hat => absurd hat (not_at_of_idle rfl rfl)⟩
  case reset =>
    refine ⟨tempBeforePress_cons htr ?_, fun hat => absurd hat (not_at_of_idle rfl rfl)⟩
    rintro ⟨a, ans, h⟩
    cases h

end Sys2Proof.Machine
end

section
/-! PROOFS. The coefficients, and the evidence of a constructed BMP280 driver in the trace (10_state R22;
41_bmp280_sequencer R166, R173; 60_exceptions R262). -/

namespace Sys2Proof.Machine

/-- An exception keeps the coefficients, but for a construction that fails (R262, log 9). -/
theorem raise_x_cases (e : Exc) (s : State) :
    (raise e s).x = s.x ∨ s.seq.op = 0x4#4 ∧ s.bmpReady = false := by
  cases h : constructingBmp s
  · exact .inl (by rw [raise_x, dropCalib_other h])
  · exact .inr (by simpa [constructingBmp, opcodeOf_bmpInit] using h)

/-- What a step of a command does to the coefficients: nothing; the block read is loaded; or a construction
has failed (R22, R262). -/
theorem StepEffect.x_cases {s t : State} (h : StepEffect s t) :
    t.x = s.x ∨
      (s.at .bmpInit 0 ∧ s.bmpReady = false ∧ ∃ k rest, s.answers = .ok k :: rest ∧ k.length = 24 ∧
        t.x = calParse k) ∨
      (s.seq.op = 0x4#4 ∧ s.bmpReady = false ∧ t.err = true ∧ t.seq = Seq.idle) := by
  cases h
  case calib bs rest hat hr ha hl => exact .inr (.inl ⟨hat, hr, bs, rest, ha, hl, rfl⟩)
  case fail u k rest c _ _ =>
    refine (raise_x_cases (.transportFailure k) (answered u (.err k) rest { s with cLat := c })).imp id ?_
    exact fun ⟨hop, hr⟩ => .inr ⟨hop, hr, raise_err _ _, raise_seq _ _⟩
  case reject e _ _ =>
    refine (raise_x_cases e s).imp id ?_
    exact fun ⟨hop, hr⟩ => .inr ⟨hop, hr, raise_err _ _, raise_seq _ _⟩
  all_goals exact .inl rfl

/-- The host's side keeps the coefficients, but for RST (R270). -/
theorem HostEffect.x_eq {s t : State} (h : HostEffect s t) (hrst : ¬ resetNext s) : t.x = s.x := by
  cases h
  case reset l hh => exact absurd ⟨l, hh⟩ hrst
  all_goals rfl

/-- A constructed driver keeps its coefficients through a command (R22). -/
theorem StepEffect.x_eq_of_ready {s t : State} (h : StepEffect s t) (hr : s.bmpReady = true) :
    t.x = s.x := by
  rcases h.x_cases with hx | ⟨-, hr', -⟩ | ⟨-, hr', -⟩
  · exact hx
  · exact absurd (hr.symm.trans hr') (by decide)
  · exact absurd (hr.symm.trans hr') (by decide)

/-- A step of a command leaves no mark of a reset (R270). -/
theorem StepEvent.hasReset_cons {s t : State} {e : BusEvent} (h : StepEvent s t e) (tr : List BusEvent) :
    hasReset (e :: tr) = hasReset tr := by
  cases h <;> rfl

/-- The events of a construction are determined by the configuration, the parameters and the block. -/
theorem initEvents_congr {s t : State} (hcfg : t.bmpCfg = s.bmpCfg) (hpar : t.params = s.params)
    (k : List Byte) : initEvents t k = initEvents s k := by
  simp [initEvents, hcfg, hpar]

/-- What a step that leads to step `j` of BMP_INIT leaves: the step stays; or the block is received and
loaded; or the event of step `j - 1` is the newest (R166). -/
theorem StepEffect.enters_bmpInit {s t : State} {j : Nat} (h : StepEffect s t) (hat : t.at .bmpInit j)
    (hj : 1 ≤ j) (hj' : j ≤ 4) :
    (s.at .bmpInit j ∧ t.x = s.x ∧ t.trace = s.trace) ∨
      (j = 1 ∧ ∃ k, k.length = 24 ∧ t.x = calParse k ∧
        t.trace = (initEvents s k).drop 3 ++ s.trace) ∨
      (2 ≤ j ∧ s.at .bmpInit (j - 1) ∧ t.x = s.x ∧ ∃ e, t.trace = e :: s.trace ∧
        ∀ k, (initEvents s k).drop (4 - j) = e :: (initEvents s k).drop (4 - (j - 1))) := by
  have step_eq {k : Nat} (hs : s.at .bmpInit k) (hseq : t.seq = ⟨s.seq.op, s.seq.step + 1⟩)
      (hk : k < 7) : j = k + 1 :=
    at_step_unique (by omega) (by omega) hat (at_succ hs hseq)
  cases h
  case wait | delayOn => exact .inl ⟨hat, rfl, rfl⟩
  case calib bs rest hs _ _ hl => exact .inr (.inl ⟨step_eq hs rfl (by decide), bs, hl, rfl, rfl⟩)
  case delayOver hl _ =>
    rcases hl with ⟨hs | hs, -⟩ | ⟨hs, rfl⟩
    · exact absurd hat (not_at_of_succ hs rfl (.inl (by decide)))
    · exact absurd hat (not_at_of_succ hs rfl (.inl (by decide)))
    · obtain rfl := step_eq hs rfl (by decide)
      exact .inr (.inr ⟨by decide, hs, rfl, _, rfl, fun k => rfl⟩)
  case store hw _ =>
    rcases hw with ⟨hs, rfl, rfl⟩ | ⟨hs, rfl, rfl⟩ | ⟨hs, -⟩
    · obtain rfl := step_eq hs rfl (by decide)
      exact .inr (.inr ⟨by decide, hs, rfl, _, rfl, fun k => rfl⟩)
    · obtain rfl := step_eq hs rfl (by decide)
      exact .inr (.inr ⟨by decide, hs, rfl, _, rfl, fun k => rfl⟩)
    · exact absurd hat (not_at_of_succ hs rfl (.inl (by decide)))
  case fail | reject => exact absurd hat (not_at_of_idle rfl (raise_seq _ _))
  case bhReady | lux | bmpReady | temp | press | idByte | statusByte | resetSent =>
    exact absurd hat (not_at_of_idle rfl rfl)
  case light | adcP =>
    refine absurd hat (not_at_of_succ (by assumption) rfl (.inl ?_))
    decide
  case wire c rest hw _ =>
    rcases sendsWire_at hw with hs | hs
    · exact absurd hat (not_at_of_succ hs rfl (.inl (by decide)))
    · exact absurd hat (not_at_of_succ hs rfl (.inl (by decide)))
  case adcT hs _ _ _ =>
    rcases hs with hs | hs
    · exact absurd hat (not_at_of_succ hs rfl (.inl (by decide)))
    · exact absurd hat (not_at_of_succ hs rfl (.inl (by decide)))
  case auxByte hs _ _ _ =>
    rcases hs with ⟨hs, -⟩ | ⟨hs, -⟩
    · exact absurd hat (not_at_of_succ hs rfl (.inl (by decide)))
    · exact absurd hat (not_at_of_succ hs rfl (.inl (by decide)))
  case skip hs _ _ => exact absurd (hs.1.symm.trans hat.1) (by decide)

theorem StepEffect.keeps_constructedInv {s t : State} (h : StepEffect s t) (hs : ConstructedInv s)
    (hs' : ConstructingInv s) : ConstructedInv t := by
  intro hready
  obtain ⟨-, hcfg, hpar, -⟩ := h.frame
  rcases h.ready_cases.2 with hsame | ⟨hat, hx, htr⟩
  · have hr : s.bmpReady = true := hsame ▸ hready
    obtain ⟨k, since, before, hl, hx, htr, hnone⟩ := hs hr
    rw [h.x_eq_of_ready hr]
    simp only [initEvents_congr hcfg hpar]
    rcases h.trace_cases with ⟨htr', -⟩ | ⟨e, he, htr', -⟩
    · exact ⟨k, since, before, hl, hx, htr'.trans htr, hnone⟩
    · exact ⟨k, e :: since, before, hl, hx, by rw [htr', htr]; rfl, (he.hasReset_cons since).trans hnone⟩
  · obtain ⟨k, before, hl, hx', htr'⟩ := hs' 4 (by decide) (by decide) hat
    simp only [initEvents_congr hcfg hpar]
    exact ⟨k, [], before, hl, hx.trans hx', htr.trans htr', rfl⟩

theorem StepEffect.keeps_constructingInv {s t : State} (h : StepEffect s t) (hs : ConstructingInv s) :
    ConstructingInv t := by
  intro j hj hj' hat
  obtain ⟨-, hcfg, hpar, -⟩ := h.frame
  simp only [initEvents_congr hcfg hpar]
  rcases h.enters_bmpInit hat hj hj' with ⟨hat', hx, htr⟩ | ⟨rfl, k, hl, hx, htr⟩ |
    ⟨h2, hat', hx, e, htr, hdrop⟩
  · obtain ⟨k, before, hl, hx', htr'⟩ := hs j hj hj' hat'
    exact ⟨k, before, hl, hx.trans hx', htr.trans htr'⟩
  · exact ⟨k, s.trace, hl, hx, htr⟩
  · obtain ⟨k, before, hl, hx', htr'⟩ := hs (j - 1) (by omega) (by omega) hat'
    exact ⟨k, before, hl, hx.trans hx', by rw [htr, htr', hdrop k]; rfl⟩

theorem StepEffect.keeps_evidenceInv {s t : State} (h : StepEffect s t) (hne : s.seq ≠ Seq.idle)
    (hop : s.seq.op ≠ 0#4) (hs : EvidenceInv s) : EvidenceInv t := by
  obtain ⟨hbusy, hdone, hdoing⟩ := hs
  exact ⟨h.keeps_busyMatchesSeq hne hop hbusy, h.keeps_constructedInv hdone hdoing,
    h.keeps_constructingInv hdoing⟩

/-- At IDLE and at step s0 nothing is claimed of a construction in progress. -/
theorem constructingInv_of_not_at {s : State} (h : ∀ j, 1 ≤ j → j ≤ 4 → ¬ s.at .bmpInit j) :
    ConstructingInv s :=
  fun j hj hj' hat => absurd hat (h j hj hj')

theorem constructingInv_of_idle {s : State} (h : s.seq = Seq.idle) : ConstructingInv s :=
  constructingInv_of_not_at fun _ _ _ => not_at_of_idle rfl h

theorem HostEffect.keeps_evidenceInv {s t : State} (h : HostEffect s t) (hs : EvidenceInv s) :
    EvidenceInv t := by
  obtain ⟨hbusy, hdone, hdoing⟩ := hs
  refine ⟨h.keeps_busyMatchesSeq hbusy, ?_⟩
  cases h
  case keep | read | bhCfg => exact ⟨hdone, hdoing⟩
  case command w i l _ _ _ =>
    refine ⟨hdone, constructingInv_of_not_at fun j hj hj' => not_at_of_step_zero rfl ?_⟩
    interval_cases j <;> decide
  case illegal => exact ⟨hdone, constructingInv_of_idle rfl⟩
  case bmpCfg v l hr hb =>
    exact ⟨fun hready => absurd (hr.symm.trans hready) (by decide),
      constructingInv_of_idle (idle_of_not_busy hbusy hb)⟩
  case reset => exact ⟨nofun, constructingInv_of_idle rfl⟩

end Sys2Proof.Machine
end

section
/-! PROOFS. The statements about invariants over the trace and about what changes the coefficients. -/

open Sys2Proof Sys2Proof.Machine

namespace Sys2Proof.Proofs

/-- Settles O53: every event and every transaction in flight comes from a transaction that a step makes. -/
theorem stepKeepsTraceListed : Obligations.StepKeepsTraceListed :=
  step_keeps (fun _ _ h => h) (fun _ _ => HostEffect.keeps_traceListed)
    fun _ _ h _ _ => h.keeps_traceListed

/-- Settles O54: a wire command is taken only on the way to its delay step, which is left only by that
delay or a reset. -/
theorem stepKeepsSettleInv : Obligations.StepKeepsSettleInv :=
  step_keeps (fun _ _ h => h) (fun _ _ => HostEffect.keeps_settleInv)
    fun _ _ => StepEffect.keeps_settleInv

/-- Settles O55: the pressure read is made at step s1 of BMP_READ_P only, which is entered with the
temperature frame received. -/
theorem stepKeepsPairingInv : Obligations.StepKeepsPairingInv :=
  step_keeps (fun _ _ h => h) (fun _ _ => HostEffect.keeps_pairingInv)
    fun _ _ h _ _ => h.keeps_pairingInv

/-- Settles O56: each step of BMP_INIT puts its event on top of those of the steps before it, and a
constructed driver only gains events that are no reset. -/
theorem stepKeepsEvidenceInv : Obligations.StepKeepsEvidenceInv :=
  step_keeps (fun _ _ h => h) (fun _ _ => HostEffect.keeps_evidenceInv)
    fun _ _ => StepEffect.keeps_evidenceInv

/-- Settles O57: by what a step of a command does to the coefficients. -/
theorem coefficientsChangeOnlyInInit : Obligations.CoefficientsChangeOnlyInInit := by
  intro s s' h hx
  by_cases hrst : resetNext s
  · exact .inl hrst
  · refine .inr ?_
    rcases step_effect h with he | ⟨l, -, -, he⟩
    · exact absurd (he.x_eq hrst) hx
    · exact he.x_cases.resolve_left hx

/-- Settles O60: no effect changes the parameters, and at IDLE only the host's side moves. -/
theorem idleIsSilent : Obligations.IdleIsSilent := by
  intro s s' h
  rcases step_effect h with he | ⟨l, hne, -, he⟩
  · refine ⟨by cases he <;> rfl, fun _ => ?_⟩
    exact he.trace_cases.imp id fun ⟨htr, hfl, _⟩ => ⟨htr, hfl⟩
  · exact ⟨he.frame.2.2.1, fun hidle => absurd hidle hne⟩

end Sys2Proof.Proofs
end

section
/-! PROOFS. The meaning of BH_INIT, BH_READ and BMP_INIT at each step number (40_bh1750_sequencer R135 to
R137; 41_bmp280_sequencer R160, R166), and the bus step of a wire row (30_encoding R94 to R112). -/

namespace Sys2Proof.Machine

/-- A wire command as an instruction is the write step of BhSend (R134). -/
theorem exec_wireCmd (c : WireCmd) (s : State) : exec c.instr s = bhSend c s := by
  cases c <;> rfl

theorem isHost_wireCmd (c : WireCmd) : c.instr.isHost = false := by
  cases c <;> rfl

/-- The write of a wire command is taken (R134). -/
theorem bhSend_ok (c : WireCmd) {s : State} {rest : List Answer} (h : s.answers = .ok [] :: rest) :
    bhSend c s = .next { okStep (.write (bhAddr s.bhCfg) [c.byte]) [] rest s with cLat := c.byte } :=
  busCall_ok h rfl

/-- The write of a wire command fails outside BMP_INIT (R79, R134, R138). -/
theorem bhSend_err (c : WireCmd) {s : State} {k : BusErr} {rest : List Answer} (hop : s.seq.op ≠ 0x4#4)
    (h : s.answers = .err k :: rest) :
    bhSend c s = .next
      { errStep s.seq.op (.write (bhAddr s.bhCfg) [c.byte]) k rest s with cLat := c.byte } := by
  have hother : constructingBmp (answered (.write (bhAddr s.bhCfg) [c.byte]) (.err k) rest
      { s with cLat := c.byte }) = false := not_constructing_of_op hop
  rw [bhSend, busCall_fails h, raise_eq hother]
  rfl

/-- The light value arrives (R64, R137). -/
theorem bhFetch_ok {s : State} {b0 b1 : Byte} {rest : List Answer} (h : s.answers = .ok [b0, b1] :: rest) :
    bhFetch s = .next
      { okStep (.read (bhAddr s.bhCfg) 2) [b0, b1] rest s with bhBuf := ⟨b0, b1⟩ } :=
  busCall_ok h rfl

/-- The calibration block arrives (R105, R166). -/
theorem loadCalib_ok {s : State} {k : List Byte} {rest : List Answer} (h : s.answers = .ok k :: rest)
    (hl : k.length = 24) :
    loadCalib s = .next
      { okStep (.writeRead (bmpAddr s.bmpCfg) [0x88] 24) k rest s with x := calParse k } :=
  busCall_ok h hl

/-- A Delay that is over (R253). -/
theorem delayStep_over {n : Nat} {s : State} (h : n ≤ s.timer + s.ticks.headD 1) :
    delayStep n s = .next { s with
      ticks := s.ticks.tail, trace := .delay n :: s.trace, seq := ⟨s.seq.op, s.seq.step + 1⟩, timer := 0 } :=
  if_pos h

/-- A Delay that goes on (R253). -/
theorem delayStep_on {n : Nat} {s : State} (h : s.timer + s.ticks.headD 1 < n) :
    delayStep n s = .next { s with
      timer := s.timer + s.ticks.headD 1, ticks := s.ticks.tail } :=
  if_neg (Nat.not_le.2 h)

theorem exec_bhInit_ready {s : State} (hat : s.at .bhInit 0) (hr : s.bhReady = true) :
    exec .bhInit s = .next (raise .alreadyInit s) := by
  simp [exec, execBhInit, at_step (by decide) hat, hr]

theorem exec_bhInit_illegal {s : State} (hat : s.at .bhInit 0) (hr : s.bhReady = false)
    (hc : cmdSelect (bhOneTime s.bhCfg) (bhRes s.bhCfg) = none) :
    exec .bhInit s = .next (raise .illegalConfig s) := by
  simp [exec, execBhInit, at_step (by decide) hat, hr, hc]

theorem exec_bhInit_send {s : State} {c : WireCmd} (hat : s.at .bhInit 0) (hr : s.bhReady = false)
    (hc : cmdSelect (bhOneTime s.bhCfg) (bhRes s.bhCfg) = some c) : exec .bhInit s = bhSend c s := by
  simp [exec, execBhInit, at_step (by decide) hat, hr, hc]

theorem exec_bhInit_s1 {s : State} (hat : s.at .bhInit 1) : exec .bhInit s = settleDelay s := by
  simp [exec, execBhInit, at_step (by decide) hat]

theorem exec_bhInit_s2 {s : State} (hat : s.at .bhInit 2) :
    exec .bhInit s = .next { doneStep s with bhReady := true } := by
  simp only [exec, execBhInit, at_step (by decide) hat]
  rfl

theorem exec_bhRead_notReady {s : State} (hat : s.at .bhRead 0) (hr : s.bhReady = false) :
    exec .bhRead s = .next (raise .notReady s) := by
  simp [exec, execBhRead, at_step (by decide) hat, hr]

theorem exec_bhRead_skip {s : State} (hat : s.at .bhRead 0) (hr : s.bhReady = true)
    (ho : bhOneTime s.bhCfg = false) : exec .bhRead s = .next (jumpTo 2 s) := by
  simp [exec, execBhRead, at_step (by decide) hat, hr, ho]

theorem exec_bhRead_send {s : State} {c : WireCmd} (hat : s.at .bhRead 0) (hr : s.bhReady = true)
    (ho : bhOneTime s.bhCfg = true) (hc : trigSelect (bhRes s.bhCfg) = some c) :
    exec .bhRead s = bhSend c s := by
  simp [exec, execBhRead, at_step (by decide) hat, hr, ho, hc]

theorem exec_bhRead_noWire {s : State} (hat : s.at .bhRead 0) (hr : s.bhReady = true)
    (ho : bhOneTime s.bhCfg = true) (hc : trigSelect (bhRes s.bhCfg) = none) :
    exec .bhRead s = .fault .noWireCommand := by
  simp [exec, execBhRead, at_step (by decide) hat, hr, ho, hc]

theorem exec_bhRead_s1 {s : State} (hat : s.at .bhRead 1) : exec .bhRead s = settleDelay s := by
  simp [exec, execBhRead, at_step (by decide) hat]

theorem exec_bhRead_s2 {s : State} (hat : s.at .bhRead 2) : exec .bhRead s = bhFetch s := by
  simp [exec, execBhRead, at_step (by decide) hat]

theorem exec_bhRead_s3 {s : State} (hat : s.at .bhRead 3) :
    exec .bhRead s = .next { doneStep s with lux := (bhDecode s.bhBuf).zeroExtend 32 } := by
  simp only [exec, execBhRead, at_step (by decide) hat]
  rfl

theorem exec_bmpInit_ready {s : State} (hat : s.at .bmpInit 0) (hr : s.bmpReady = true) :
    exec .bmpInit s = .next (raise .alreadyInit s) := by
  simp [exec, execBmpInit, at_step (by decide) hat, hr]

theorem exec_bmpInit_s0 {s : State} (hat : s.at .bmpInit 0) (hr : s.bmpReady = false) :
    exec .bmpInit s = loadCalib s := by
  simp [exec, execBmpInit, at_step (by decide) hat, hr]

theorem exec_bmpInit_s1 {s : State} (hat : s.at .bmpInit 1) : exec .bmpInit s = delayStep 2 s := by
  simp [exec, execBmpInit, at_step (by decide) hat, bmpInitDelay]

theorem exec_bmpInit_s2 {s : State} (hat : s.at .bmpInit 2) : exec .bmpInit s = storeCtrl s := by
  simp [exec, execBmpInit, at_step (by decide) hat]

theorem exec_bmpInit_s3 {s : State} (hat : s.at .bmpInit 3) : exec .bmpInit s = storeConfig s := by
  simp [exec, execBmpInit, at_step (by decide) hat]

theorem exec_bmpInit_s4 {s : State} (hat : s.at .bmpInit 4) :
    exec .bmpInit s = .next { doneStep s with bmpReady := true } := by
  simp only [exec, execBmpInit, at_step (by decide) hat]
  rfl

/-- A command has no meaning at a step number that it does not have (R26). -/
theorem exec_beyond {i : Instr} {s : State} (hi : i.isHost = true)
    (hk : stepCount i ≤ s.seq.step.toNat) : exec i s = .fault .sequencerState := by
  cases i
  case bhInit | bhRead | bmpInit | bmpReadT | bmpReadP | bmpReadId | bmpReadStatus | bmpReset =>
    simp only [exec, execBhInit, execBhRead, execBmpInit, execBmpReadT, execBmpReadP, execBmpReadId,
      execBmpReadStatus, execBmpReset]
    split <;> simp_all [stepCount]
  all_goals exact absurd hi (by decide)

end Sys2Proof.Machine
end

section
/-! PROOFS. Everything the meaning of a command can be: a bus call, a Delay, a next state, or one of the three
faults (10_state R26; 30_encoding R120; 40_bh1750_sequencer R131, R132). -/

namespace Sys2Proof.Machine

/-- The meaning of the command in SEQ, with the transaction that the step makes. -/
inductive ExecForm (s : State) (i : Instr) : Result State → Prop
  | bus (t : Txn) (latch : State → State) (bind : List Byte → State → State) : stepTxn s = some t →
      ExecForm s i (busCall t latch bind s)
  | delay (n : Nat) : stepTxn s = none → ExecForm s i (delayStep n s)
  | next (t : State) : stepTxn s = none → ExecForm s i (.next t)
  | noStep : stepTxn s = none → stepCount i ≤ s.seq.step.toNat → ExecForm s i (.fault .sequencerState)
  | noWire : stepTxn s = none → s.bhReady = true → trigSelect (bhRes s.bhCfg) = none →
      ExecForm s i (.fault .noWireCommand)
  | noSettle : stepTxn s = none → AtSettle s → settleMs s.cLat = none →
      ExecForm s i (.fault .noSettleDelay)

theorem settleDelay_form {s : State} {i : Instr} (ht : stepTxn s = none) (hat : AtSettle s) :
    ExecForm s i (settleDelay s) := by
  unfold settleDelay
  split
  · exact .delay _ ht
  · next h => exact .noSettle ht hat h

theorem bhInit_form {s : State} {k : Nat} (hat : s.at .bhInit k) (hk : k < 3) :
    ExecForm s .bhInit (exec .bhInit s) := by
  have hf := fetch_at (i := .bhInit) rfl hat.1
  have hstep := at_step (by omega) hat
  interval_cases k
  · cases hr : s.bhReady
    · cases hc : cmdSelect (bhOneTime s.bhCfg) (bhRes s.bhCfg) with
      | none =>
        rw [exec_bhInit_illegal hat hr hc]
        exact .next _ (by simp [stepTxn, hf, hstep, hr, hc])
      | some c =>
        rw [exec_bhInit_send hat hr hc]
        exact .bus _ _ _ (by simp [stepTxn, hf, hstep, hr, hc])
    · rw [exec_bhInit_ready hat hr]
      exact .next _ (by simp [stepTxn, hf, hstep, hr])
  · rw [exec_bhInit_s1 hat]
    exact settleDelay_form (by simp [stepTxn, hf, hstep]) (.inl hat)
  · rw [exec_bhInit_s2 hat]
    exact .next _ (by simp [stepTxn, hf, hstep])

theorem bhRead_form {s : State} {k : Nat} (hat : s.at .bhRead k) (hk : k < 4) :
    ExecForm s .bhRead (exec .bhRead s) := by
  have hf := fetch_at (i := .bhRead) rfl hat.1
  have hstep := at_step (by omega) hat
  interval_cases k
  · cases hr : s.bhReady
    · rw [exec_bhRead_notReady hat hr]
      exact .next _ (by simp [stepTxn, hf, hstep, hr])
    · cases ho : bhOneTime s.bhCfg
      · rw [exec_bhRead_skip hat hr ho]
        exact .next _ (by simp [stepTxn, hf, hstep, ho])
      · cases hc : trigSelect (bhRes s.bhCfg) with
        | none =>
          rw [exec_bhRead_noWire hat hr ho hc]
          exact .noWire (by simp [stepTxn, hf, hstep, hc]) hr hc
        | some c =>
          rw [exec_bhRead_send hat hr ho hc]
          exact .bus _ _ _ (by simp [stepTxn, hf, hstep, hr, ho, hc])
  · rw [exec_bhRead_s1 hat]
    exact settleDelay_form (by simp [stepTxn, hf, hstep]) (.inr hat)
  · rw [exec_bhRead_s2 hat]
    exact .bus _ _ _ (by simp [stepTxn, hf, hstep])
  · rw [exec_bhRead_s3 hat]
    exact .next _ (by simp [stepTxn, hf, hstep])

theorem bmpInit_form {s : State} {k : Nat} (hat : s.at .bmpInit k) (hk : k < 5) :
    ExecForm s .bmpInit (exec .bmpInit s) := by
  have hf := fetch_at (i := .bmpInit) rfl hat.1
  have hstep := at_step (by omega) hat
  interval_cases k
  · cases hr : s.bmpReady
    · rw [exec_bmpInit_s0 hat hr]
      exact .bus _ _ _ (by simp [stepTxn, hf, hstep, hr, memRead, calLen])
    · rw [exec_bmpInit_ready hat hr]
      exact .next _ (by simp [stepTxn, hf, hstep, hr])
  · rw [exec_bmpInit_s1 hat]
    exact .delay _ (by simp [stepTxn, hf, hstep])
  · rw [exec_bmpInit_s2 hat]
    exact .bus _ _ _ (by simp [stepTxn, hf, hstep, memWrite])
  · rw [exec_bmpInit_s3 hat]
    exact .bus _ _ _ (by simp [stepTxn, hf, hstep, memWrite])
  · rw [exec_bmpInit_s4 hat]
    exact .next _ (by simp [stepTxn, hf, hstep])

/-- Without BMP_READY the five commands make no transaction (R160). -/
theorem stepTxn_notReady {s : State} {i : Instr} (hi : isBmpRead i) (hat : s.at i 0)
    (hr : s.bmpReady = false) : stepTxn s = none := by
  have hf := fetch_at (isHost_of_isBmpRead hi) hat.1
  have hstep := at_step (by decide) hat
  rcases hi with rfl | rfl | rfl | rfl | rfl <;> simp [stepTxn, hf, hstep, hr]

theorem bmpRead_form {s : State} {i : Instr} {k : Nat} (hi : isBmpRead i) (hat : s.at i k)
    (hk : k < stepCount i) : ExecForm s i (exec i s) := by
  have hf := fetch_at (isHost_of_isBmpRead hi) hat.1
  rcases Nat.eq_zero_or_pos k with rfl | hpos
  · cases hr : s.bmpReady
    · rw [exec_notReady hi hat hr]
      exact .next _ (stepTxn_notReady hi hat hr)
    · obtain ⟨t, bind, ht, hexec⟩ := exec_s0_eq_busCall hi hat hr
      rw [hexec]
      exact .bus t id bind ht
  · have hstep := at_step (hk.trans (by rcases hi with rfl | rfl | rfl | rfl | rfl <;> decide)) hat
    rcases hi with rfl | rfl | rfl | rfl | rfl
    · obtain rfl : k = 1 := by change k < 2 at hk; omega
      rw [exec_bmpReadT_s1 hat]
      exact .next _ (by simp [stepTxn, hf, hstep])
    · obtain rfl | rfl : k = 1 ∨ k = 2 := by change k < 3 at hk; omega
      · rw [exec_bmpReadP_s1 hat]
        exact .bus _ _ _ (by simp [stepTxn, hf, hstep, memRead])
      · rw [exec_bmpReadP_s2 hat]
        exact .next _ (by simp [stepTxn, hf, hstep])
    · obtain rfl : k = 1 := by change k < 2 at hk; omega
      rw [exec_bmpReadId_s1 hat]
      exact .next _ (by simp [stepTxn, hf, hstep])
    · obtain rfl : k = 1 := by change k < 2 at hk; omega
      rw [exec_bmpReadStatus_s1 hat]
      exact .next _ (by simp [stepTxn, hf, hstep])
    · obtain rfl : k = 1 := by change k < 2 at hk; omega
      rw [exec_bmpReset_s1 hat]
      exact .next _ (by simp [stepTxn, hf, hstep])

/-- A step number that its command does not have makes no transaction. -/
theorem stepTxn_beyond {s : State} {i : Instr} (hf : fetch s = .run i)
    (hk : stepCount i ≤ s.seq.step.toNat) : stepTxn s = none := by
  unfold stepTxn
  split
  case h_13 => rfl
  all_goals
    next hf' hk' =>
      cases hf.symm.trans hf'
      rw [hk'] at hk
      exact absurd hk (by decide)

/-- The meaning of the command in SEQ is one of the forms. -/
theorem exec_form {s : State} {i : Instr} (hf : fetch s = .run i) : ExecForm s i (exec i s) := by
  obtain ⟨hi, hop, -⟩ := fetch_run hf
  have hat := at_of_step hop rfl
  rcases Nat.lt_or_ge s.seq.step.toNat (stepCount i) with hk | hk
  · cases i
    case bhInit => exact bhInit_form hat hk
    case bhRead => exact bhRead_form hat hk
    case bmpInit => exact bmpInit_form hat hk
    case bmpReadT | bmpReadP | bmpReadId | bmpReadStatus | bmpReset =>
      exact bmpRead_form (by simp [isBmpRead]) hat hk
    all_goals exact absurd hi (by decide)
  · rw [exec_beyond hi hk]
    exact .noStep (stepTxn_beyond hf hk) hk

/-- The step that makes a transaction is its bus call (R61). -/
theorem exec_of_stepTxn {s : State} {i : Instr} {t : Txn} (hf : fetch s = .run i)
    (ht : stepTxn s = some t) : ∃ latch bind, exec i s = busCall t latch bind s := by
  have hform := exec_form hf
  generalize exec i s = r at hform ⊢
  cases hform
  case bus u latch bind hu =>
    obtain rfl : u = t := Option.some.inj (hu.symm.trans ht)
    exact ⟨latch, bind, rfl⟩
  all_goals exact absurd (ht.symm.trans ‹stepTxn s = none›) nofun

/-- A step that makes a transaction is one of a command. -/
theorem fetch_of_stepTxn {s : State} {t : Txn} (ht : stepTxn s = some t) : ∃ i, fetch s = .run i := by
  cases hf : fetch s
  case run i => exact ⟨i, rfl⟩
  all_goals simp [stepTxn, hf] at ht

/-- The invariant of the registers leaves no state without a meaning (R26, R120, R132). -/
theorem exec_ne_fault {s : State} {i : Instr} (hs : RegInv s) (hf : fetch s = .run i) (f : Fault) :
    exec i s ≠ .fault f := by
  obtain ⟨hseq, -, -, -, hadm, hlat⟩ := hs
  obtain ⟨hi, hop, hne⟩ := fetch_run hf
  have hform := exec_form hf
  intro hexec
  rw [hexec] at hform
  generalize hr : (Host.Outcome.fault f : Result State) = r at hform
  cases hform
  case bus t latch bind _ => exact busCall_ne_fault t latch bind s f hr.symm
  case delay n _ =>
    rcases delayStep_cases n s with ⟨-, h⟩ | ⟨-, h⟩ <;> rw [h] at hr <;> cases hr
  case next => cases hr
  case noStep _ hk =>
    rcases hseq with h0 | ⟨j, k, hj, hk', hat⟩
    · exact hne h0
    · obtain rfl : i = j := opcodeOf_inj hi hj (hop.symm.trans hat.1)
      rw [hat.2, BitVec.toNat_ofNat] at hk
      have := Nat.mod_le k (2 ^ 3)
      omega
  case noWire _ hr' hc =>
    have hres := hadm.1 hr'
    have := trigSelect_byte hres
    rw [hc] at this
    cases this
  case noSettle _ hat hn =>
    have some_settle {o : Option WireCmd} (ho : o.map WireCmd.byte = some s.cLat) : False := by
      obtain ⟨c, -, hc⟩ := Option.map_eq_some_iff.1 ho
      obtain ⟨n, hn'⟩ := settleMs_byte c
      rw [← hc, hn'] at hn
      cases hn
    rcases hat with hat | hat
    · exact some_settle (hlat.1 hat)
    · exact some_settle (hlat.2 hat)

/-- Only an answer of the wrong length is refused (R61, log 3). -/
theorem exec_refused {s : State} {i : Instr} {r : Refusal} (hf : fetch s = .run i)
    (h : exec i s = .refused r) :
    r = .transportContract ∧ ∃ t bs rest, stepTxn s = some t ∧ s.answers = .ok bs :: rest ∧
      bs.length ≠ t.rxLen := by
  have hform := exec_form hf
  rw [h] at hform
  generalize hr : (Host.Outcome.refused r : Result State) = o at hform
  cases hform
  case bus t latch bind ht =>
    rcases busCall_cases t latch bind s with ⟨-, hc⟩ | ⟨_, _, -, hc⟩ | ⟨_, _, -, -, hc⟩ |
      ⟨bs, rest, ha, hl, hc⟩ <;> rw [hc] at hr <;> cases hr
    exact ⟨rfl, t, bs, rest, ht, ha, hl⟩
  case delay n _ =>
    rcases delayStep_cases n s with ⟨-, hc⟩ | ⟨-, hc⟩ <;> rw [hc] at hr <;> cases hr
  all_goals cases hr

/-- With SEQ legal there is no opcode without a command (R26). -/
theorem fetch_ne_illegal {s : State} (h : SeqLegal s) : fetch s ≠ .illegal := by
  rcases h with hidle | ⟨i, k, hi, -, hat⟩
  · rw [fetch_idle hidle]
    nofun
  · rw [fetch_at hi hat.1]
    nofun

/-! Hang and delay: steps that repeat (R253, R258). -/

/-- A bus step whose call does not return leaves its transaction in flight and nothing else (R258). -/
theorem exec_hangs {s : State} {i : Instr} {t : Txn} (hf : fetch s = .run i) (ht : stepTxn s = some t)
    (hu : Unanswered s) : exec i s = .next { s with inflight := some t } := by
  obtain ⟨latch, bind, hexec⟩ := exec_of_stepTxn hf ht
  rw [hexec, busCall_waits hu]

/-- … for any number of steps (R258). -/
theorem run_hangs {s : State} {t : Txn} (hh : s.host = []) (hu : Unanswered s)
    (ht : stepTxn s = some t) (n : Nat) :
    Host.Core.run core (n + 1) s = .next { s with inflight := some t } := by
  have hstep (u : State) (hh : u.host = []) (hu : Unanswered u) (ht : stepTxn u = some t) :
      step u = .next { u with inflight := some t } := by
    obtain ⟨i, hf⟩ := fetch_of_stepTxn ht
    obtain ⟨hi, hop, -⟩ := fetch_run hf
    rw [step_exec hh hi hop, exec_hangs hf ht hu]
  induction n generalizing s with
  | zero => rw [run_of_step (hstep s hh hu ht), run_zero]
  | succ n ih => rw [run_of_step (hstep s hh hu ht), ih (s := { s with inflight := some t }) hh hu ht]

/-- The meaning of a Delay step (R134, R166, R253). -/
theorem exec_delay {s : State} {n : Nat} (h : delayLabel s n) :
    ∃ i, i.isHost = true ∧ s.seq.op = opcodeOf i ∧ exec i s = delayStep n s := by
  rcases h with ⟨hat | hat, hn⟩ | ⟨hat, rfl⟩
  · exact ⟨.bhInit, rfl, hat.1, by rw [exec_bhInit_s1 hat, settleDelay_of hn]⟩
  · exact ⟨.bhRead, rfl, hat.1, by rw [exec_bhRead_s1 hat, settleDelay_of hn]⟩
  · exact ⟨.bmpInit, rfl, hat.1, exec_bmpInit_s1 hat⟩

theorem step_delay {s : State} {n : Nat} (hh : s.host = []) (h : delayLabel s n) :
    step s = delayStep n s := by
  obtain ⟨i, hi, hop, hexec⟩ := exec_delay h
  rw [step_exec hh hi hop, hexec]

/-- A Delay ends within as many steps as ticks are listed and milliseconds are missing, and one (R253):
each step either uses up a listed tick or, the list being empty, counts a millisecond. -/
theorem run_delay_ends {n : Nat} (f : Nat) : ∀ s : State, s.host = [] → delayLabel s n →
    s.ticks.length + (n - s.timer) ≤ f →
    ∃ m, m ≤ f + 1 ∧
      Host.Core.run core m s = .next { s with
        timer := 0, ticks := s.ticks.drop m, trace := .delay n :: s.trace,
        seq := ⟨s.seq.op, s.seq.step + 1⟩ } := by
  induction f with
  | zero =>
    intro s hh hl hf
    have hover : n ≤ s.timer + s.ticks.headD 1 := by omega
    refine ⟨1, le_rfl, ?_⟩
    rw [run_of_step ((step_delay hh hl).trans (delayStep_over hover)), run_zero]
    simp
  | succ f ih =>
    intro s hh hl hf
    by_cases hover : n ≤ s.timer + s.ticks.headD 1
    · refine ⟨1, by omega, ?_⟩
      rw [run_of_step ((step_delay hh hl).trans (delayStep_over hover)), run_zero]
      simp
    · have hless : s.ticks.tail.length + (n - (s.timer + s.ticks.headD 1)) ≤ f := by
        cases hts : s.ticks with
        | nil =>
          rw [hts] at hf hover
          simp only [List.headD_nil, List.length_nil, List.tail_nil] at hf hover ⊢
          omega
        | cons d ts =>
          rw [hts] at hf
          simp only [List.headD_cons, List.tail_cons, List.length_cons] at hf ⊢
          omega
      obtain ⟨m, hm, hrun⟩ :=
        ih { s with timer := s.timer + s.ticks.headD 1, ticks := s.ticks.tail } hh hl hless
      refine ⟨m + 1, by omega, ?_⟩
      rw [run_of_step ((step_delay hh hl).trans (delayStep_on (by omega))), hrun]
      simp

end Sys2Proof.Machine
end

section
/-! PROOFS. The statements about faults, hang and time (60_exceptions R253, R258). -/

open Sys2Proof Sys2Proof.Machine

namespace Sys2Proof.Proofs

/-- Settles O52: SEQ is legal, so a step is a command's meaning, and the invariant leaves it neither of
the faults. -/
theorem regInvExcludesFaults : Obligations.RegInvExcludesFaults := by
  intro s hs
  have moved {u : State} (hu : turn s = .scse u) : RegInv u ∧ u.answers = s.answers := by
    obtain ⟨l, rfl⟩ := turn_scse hu
    exact ⟨hs, rfl⟩
  rcases step_cases s with ⟨t, -, h⟩ | ⟨t, -, -, h⟩ | ⟨u, i, hu, hf, h⟩ | ⟨u, hu, hf, -⟩
  · rw [h]
    exact ⟨nofun, nofun⟩
  · rw [h]
    exact ⟨nofun, nofun⟩
  · obtain ⟨hinv, hans⟩ := moved hu
    rw [h]
    refine ⟨exec_ne_fault hinv hf, fun r hr => ?_⟩
    obtain ⟨hr', t, bs, rest, ht, ha, hl⟩ := exec_refused hf hr
    exact ⟨hr', t, u, bs, rest, hu, ht, hans ▸ ha, hl⟩
  · exact absurd hf (fetch_ne_illegal (moved hu).1.1)

/-- Settles O48: a hung step repeats itself; the step into the hang and the reset after it are two known
steps. -/
theorem unansweredTransactionHangs : Obligations.UnansweredTransactionHangs := by
  refine ⟨fun s t n hh hu ht => run_hangs hh hu ht n, fun s t later rest hh ha ht => ?_⟩
  obtain ⟨i, hf⟩ := fetch_of_stepTxn (s := { s with host := .rst :: rest }) ht
  have hfirst : step s = .next { s with host := .rst :: rest, inflight := some t } := by
    have hturn : turn s = .scse { s with host := .rst :: rest } := by simp [turn, hh]
    simp only [step, hturn, hf]
    exact exec_hangs hf ht (.inr ⟨later, ha⟩)
  refine ⟨applyReset { s with host := rest, inflight := some t }, ?_, rfl, rfl, rfl, ?_, rfl, rfl⟩
  · rw [run_of_step hfirst]
    exact run_of_step (n := 0) rfl
  · change answersAfterCut (some t) s.answers = later
    rw [ha, answersAfterCut_never]

/-- Settles O49: one step by the Delay's two cases, its end by the ticks and milliseconds still to come. -/
theorem delayIsALowerBoundAndEnds : Obligations.DelayIsALowerBoundAndEnds := by
  intro s n hh hl
  refine ⟨fun hon => (step_delay hh hl).trans (delayStep_on hon), ?_⟩
  obtain ⟨m, hm, hrun⟩ := run_delay_ends (s.ticks.length + n) s hh hl (by omega)
  exact ⟨m, hm, hrun⟩

end Sys2Proof.Proofs
end

section
/-! PROOFS. The flags, ERRINFO and the results through a step (10_state R27; 60_exceptions R248, R249). -/

namespace Sys2Proof.Machine

/-- BUSY, DONE and ERR stay as they were. -/
structure FlagsSame (s t : State) : Prop where
  busy : t.busy = s.busy
  done : t.done = s.done
  err : t.err = s.err

/-- A step ends the command in SEQ, or takes an illegal command word: BUSY and DONE as R10, R242 and R248
say, and ERR only with a code. -/
structure FlagsEnded (s t : State) : Prop where
  busy : t.busy = false
  done : t.done = true
  seq : t.seq = Seq.idle
  err : t.err = s.err ∨ t.err = true ∧ errCode t.errInfo ≠ 0#3

/-- What a step does to BUSY, DONE and ERR: nothing; the acceptance of a command; an illegal command word;
a reset; or the end of a command (R27). -/
theorem step_flags {s t : State} (h : step s = .next t) :
    FlagsSame s t ∨
    (∃ w rest, s.host = .write 0x00 w :: rest ∧ s.busy = false ∧ decodeCmd w ≠ none ∧ t.busy = true ∧
      t.done = false ∧ t.err = false) ∨
    (∃ w rest, s.host = .write 0x00 w :: rest ∧ s.busy = false ∧ decodeCmd w = none ∧ FlagsEnded s t) ∨
    (resetNext s ∧ t.busy = false ∧ t.done = false ∧ t.err = false) ∨
    (s.seq ≠ Seq.idle ∧ FlagsEnded s t) := by
  rcases step_effect h with he | ⟨l, hne, -, he⟩
  · cases he
    case keep | bhCfg | bmpCfg | read => exact .inl ⟨rfl, rfl, rfl⟩
    case command w i l hh hb hd =>
      exact .inr (.inl ⟨w, l, hh, hb, by simp [hd], rfl, rfl, rfl⟩)
    case illegal w l hh hb hd =>
      exact .inr (.inr (.inl ⟨w, l, hh, hb, hd, rfl, rfl, rfl, .inr ⟨rfl, by simp [Exc.code]⟩⟩))
    case reset l hh => exact .inr (.inr (.inr (.inl ⟨⟨l, hh⟩, rfl, rfl, rfl⟩)))
  · rcases he.outcome with hg | hc | ⟨e, hr, -⟩
    · exact .inl ⟨hg.busy, hg.done, hg.err⟩
    · exact .inr (.inr (.inr (.inr ⟨hne, hc.busy, hc.done, hc.seq, .inl hc.err⟩)))
    · refine .inr (.inr (.inr (.inr ⟨hne, hr.busy, hr.done, hr.seq, .inr ⟨hr.err, ?_⟩⟩)))
      rw [hr.errInfo, errCode_errInfoWord]
      exact (code_ne e).1

/-- A flag is not both clear and set. -/
theorem absurd_flag {b : Bool} {P : Prop} (h0 : b = false) (h1 : b = true) : P :=
  absurd (h0.symm.trans h1) (by decide)

theorem step_sets_busy {s t : State} (h : step s = .next t) (h0 : s.busy = false) (h1 : t.busy = true) :
    ∃ w rest, s.host = .write 0x00 w :: rest ∧ decodeCmd w ≠ none := by
  rcases step_flags h with hsame | ⟨w, rest, hh, -, hd, -⟩ | ⟨_, _, -, -, -, hend⟩ | ⟨-, hb, -⟩ | ⟨-, hend⟩
  · exact absurd_flag (hsame.busy.trans h0) h1
  · exact ⟨w, rest, hh, hd⟩
  · exact absurd_flag hend.busy h1
  · exact absurd_flag hb h1
  · exact absurd_flag hend.busy h1

theorem step_sets_err {s t : State} (h : step s = .next t) (h0 : s.err = false) (h1 : t.err = true) :
    t.busy = false ∧ t.done = true ∧ errCode t.errInfo ≠ 0#3 := by
  have ended (hend : FlagsEnded s t) : t.busy = false ∧ t.done = true ∧ errCode t.errInfo ≠ 0#3 := by
    rcases hend.err with hsame | ⟨-, hcode⟩
    · exact absurd_flag (hsame.trans h0) h1
    · exact ⟨hend.busy, hend.done, hcode⟩
  rcases step_flags h with hsame | ⟨_, _, -, -, -, -, -, he⟩ | ⟨_, _, -, -, -, hend⟩ | ⟨-, -, -, he⟩ | ⟨-, hend⟩
  · exact absurd_flag (hsame.err.trans h0) h1
  · exact absurd_flag he h1
  · exact ended hend
  · exact absurd_flag he h1
  · exact ended hend

theorem step_sets_done {s t : State} (h : step s = .next t) (h0 : s.done = false) (h1 : t.done = true) :
    t.busy = false ∧ t.seq = Seq.idle ∧
      (s.seq ≠ Seq.idle ∨ ∃ w rest, s.host = .write 0x00 w :: rest ∧ decodeCmd w = none) := by
  rcases step_flags h with hsame | ⟨_, _, -, -, -, -, hd, -⟩ | ⟨w, rest, hh, -, hd, hend⟩ | ⟨-, -, hd, -⟩ |
    ⟨hne, hend⟩
  · exact absurd_flag (hsame.done.trans h0) h1
  · exact absurd_flag hd h1
  · exact ⟨hend.busy, hend.seq, .inr ⟨w, rest, hh, hd⟩⟩
  · exact absurd_flag hd h1
  · exact ⟨hend.busy, hend.seq, .inl hne⟩

theorem step_clears_busy {s t : State} (h : step s = .next t) (h1 : s.busy = true) (h0 : t.busy = false) :
    resetNext s ∨ (t.done = true ∧ t.seq = Seq.idle) := by
  rcases step_flags h with hsame | ⟨_, _, -, hb, -⟩ | ⟨_, _, -, hb, -⟩ | ⟨hrst, -⟩ | ⟨-, hend⟩
  · exact absurd_flag h0 (hsame.busy.trans h1)
  · exact absurd_flag hb h1
  · exact absurd_flag hb h1
  · exact .inl hrst
  · exact .inr ⟨hend.done, hend.seq⟩

theorem step_clears_done {s t : State} (h : step s = .next t) (h1 : s.done = true) (h0 : t.done = false) :
    resetNext s ∨ ∃ w rest, s.host = .write 0x00 w :: rest ∧ s.busy = false := by
  rcases step_flags h with hsame | ⟨w, rest, hh, hb, -⟩ | ⟨w, rest, hh, hb, -⟩ | ⟨hrst, -⟩ | ⟨-, hend⟩
  · exact absurd_flag h0 (hsame.done.trans h1)
  · exact .inr ⟨w, rest, hh, hb⟩
  · exact .inr ⟨w, rest, hh, hb⟩
  · exact .inl hrst
  · exact absurd_flag h0 hend.done

theorem step_clears_err {s t : State} (h : step s = .next t) (h1 : s.err = true) (h0 : t.err = false) :
    resetNext s ∨ ∃ w rest, s.host = .write 0x00 w :: rest ∧ s.busy = false := by
  rcases step_flags h with hsame | ⟨w, rest, hh, hb, -⟩ | ⟨w, rest, hh, hb, -⟩ | ⟨hrst, -⟩ | ⟨-, hend⟩
  · exact absurd_flag h0 (hsame.err.trans h1)
  · exact .inr ⟨w, rest, hh, hb⟩
  · exact .inr ⟨w, rest, hh, hb⟩
  · exact .inl hrst
  · rcases hend.err with hsame | ⟨he, -⟩
    · exact absurd_flag h0 (hsame.trans h1)
    · exact absurd_flag h0 he

/-- The host's side sets no ready flag (R27). -/
theorem HostEffect.ready_cases {s t : State} (h : HostEffect s t) :
    (t.bhReady = s.bhReady ∨ t.bhReady = false) ∧ (t.bmpReady = s.bmpReady ∨ t.bmpReady = false) := by
  cases h
  case reset => exact ⟨.inr rfl, .inr rfl⟩
  all_goals exact ⟨.inl rfl, .inl rfl⟩

/-- A ready flag is set only by the last step of its construction (R27). -/
theorem step_sets_ready {s t : State} (h : step s = .next t) :
    (s.bhReady = false → t.bhReady = true → s.at .bhInit 2) ∧
      (s.bmpReady = false → t.bmpReady = true → s.at .bmpInit 4) := by
  rcases step_effect h with he | ⟨l, -, -, he⟩
  · obtain ⟨hbh, hbmp⟩ := he.ready_cases
    exact ⟨fun h0 h1 => hbh.elim (fun hs => absurd_flag (hs.trans h0) h1) fun hc => absurd_flag hc h1,
      fun h0 h1 => hbmp.elim (fun hs => absurd_flag (hs.trans h0) h1) fun hc => absurd_flag hc h1⟩
  · obtain ⟨hbh, hbmp⟩ := he.ready_cases
    exact ⟨fun h0 h1 => hbh.elim (fun hs => absurd_flag (hs.trans h0) h1) id,
      fun h0 h1 => hbmp.elim (fun hs => absurd_flag (hs.trans h0) h1) And.left⟩

/-- A ready flag is cleared only by RST (R27, R42). -/
theorem step_clears_ready {s t : State} (h : step s = .next t) :
    (s.bhReady = true → t.bhReady = false → resetNext s) ∧
      (s.bmpReady = true → t.bmpReady = false → resetNext s) := by
  by_cases hrst : resetNext s
  · exact ⟨fun _ _ => hrst, fun _ _ => hrst⟩
  · obtain ⟨hbh, hbmp⟩ := step_keeps_ready h hrst
    exact ⟨fun h1 h0 => absurd_flag h0 (hbh h1), fun h1 h0 => absurd_flag h0 (hbmp h1)⟩

/-- The host's side changes no result but by RST (R249, R270). -/
theorem HostEffect.results_eq {s t : State} (h : HostEffect s t) (hrst : ¬ resetNext s) :
    resultsOf t = resultsOf s := by
  cases h
  case reset l hh => exact absurd ⟨l, hh⟩ hrst
  all_goals rfl

/-- The invariant of the registers at a state that holds the reset values (R45). -/
theorem regInv_of_reset {s : State} (hseq : s.seq = Seq.idle) (hbusy : s.busy = false)
    (hdone : s.done = false) (herr : s.err = false) (hinfo : s.errInfo = 0) (hready : s.bhReady = false)
    (hres : ReservedZero s) : RegInv s := by
  refine ⟨.inl hseq, ?_, errMatches_cleared hdone herr hinfo, hres, admitted_of_idle hseq ?_,
    latchMatches_of_not_atSettle (not_atSettle_of_idle hseq)⟩
  · simp [BusyMatchesSeq, hseq, hbusy]
  · simp [hready]

end Sys2Proof.Machine
end

section
/-! PROOFS. The statements about flags, exceptions, results and the start of a run. -/

open Sys2Proof Sys2Proof.Machine

namespace Sys2Proof.Proofs

/-- Settles O46: outside a failing construction the exception is the plain one; inside, the coefficients
and their counter are the witnesses. -/
theorem raiseEffect : Obligations.RaiseEffect := by
  intro e code s hcode
  obtain rfl : code = e.code := by cases e <;> exact hcode
  refine ⟨⟨(dropCalib s).x, (dropCalib s).freeCtr, ?_⟩, fun hop => ?_, by simp, by simp⟩
  · unfold raise dropCalib
    split <;> cases e <;> rfl
  · refine (raise_x_cases e s).resolve_right ?_
    rintro ⟨hop', hr⟩
    rcases hop with hop | hr'
    · exact hop hop'
    · exact absurd (hr.symm.trans hr') (by decide)

/-- Settles O47: a step that raises writes the code of its exception, and ArithOverflow is raised under
`fault` only. -/
theorem arithOverflowOnlyUnderFault : Obligations.ArithOverflowOnlyUnderFault := by
  intro s s' hm h hcode
  rcases step_effect h with he | ⟨l, -, -, he⟩
  · cases he
    case keep | bhCfg | bmpCfg | read => exact hcode
    case command | reset => exact (by decide : errCode 0#32 ≠ 6#3)
    case illegal => simp [Exc.code]
  · rcases he.outcome with hg | hc | ⟨e, hr, hfault⟩
    · rwa [hg.errInfo]
    · rwa [hc.errInfo]
    · rw [hr.errInfo, errCode_errInfoWord]
      intro h6
      have hf : s.params.ovfMode = .fault := hfault (eq_arithOverflow_of_code h6)
      rw [hm] at hf
      cases hf

/-- Settles O58: a step that goes on or raises keeps the results; one that completes ends the command with
ERR as it was, which is 0 while BUSY. -/
theorem resultsChangeOnlyOnSuccess : Obligations.ResultsChangeOnlyOnSuccess := by
  intro s s' hs h hrst hres
  rcases step_effect h with he | ⟨l, hne, -, he⟩
  · exact absurd (he.results_eq hrst) hres
  · rcases he.outcome with hg | hc | ⟨e, hr, -⟩
    · exact absurd hg.results hres
    · obtain ⟨-, hbusy, herr, -⟩ := hs
      obtain ⟨hb, he0⟩ := err_false_of_running hbusy herr hne
      exact ⟨hb, hc.busy, hc.done, hc.err.trans he0⟩
    · exact absurd hr.results hres

/-- Settles O59: BUSY, DONE and ERR by the five things a step does to them, the ready flags by the last
steps of the constructions and by what keeps them. -/
theorem flagsChangeOnlyAsListed : Obligations.FlagsChangeOnlyAsListed := by
  intro s s' h
  obtain ⟨hbh, hbmp⟩ := step_sets_ready h
  obtain ⟨hbh', hbmp'⟩ := step_clears_ready h
  exact ⟨step_sets_busy h, step_sets_err h, hbh, hbmp, step_sets_done h, step_clears_busy h,
    step_clears_done h, step_clears_err h, hbh', hbmp'⟩

/-- Settles O50: every register that an invariant reads holds its reset value, and nothing has been seen on
the bus. -/
theorem invariantsHoldAtStart : Obligations.InvariantsHoldAtStart := by
  intro p h a k
  have hidle : (State.start p h a k).seq = Seq.idle := rfl
  have hreg : RegInv (State.start p h a k) :=
    regInv_of_reset rfl rfl rfl rfl rfl rfl reservedZero_reset
  refine ⟨hreg, ⟨nofun, nofun⟩, ⟨hreg.2.1, trivial, nofun⟩,
    ⟨trivial, fun hat => absurd hat (not_at_of_idle rfl hidle)⟩,
    hreg.2.1, nofun, constructingInv_of_idle hidle⟩

end Sys2Proof.Proofs
end

section
/-! PROOFS. Dispatch, the register map, RST, and the wire rows with the fields that select them (00_scope R11;
10_state R28 to R34; 30_encoding R94 to R112; 70_reset R270). -/

namespace Sys2Proof.Machine

/-- The command that the opcode in SEQ decodes to is the one that runs (R26). -/
theorem fetch_of_decodeOp {s : State} {i : Instr} (h : decodeOp s.seq.op = some i) : fetch s = .run i := by
  have hne : s.seq ≠ Seq.idle := by
    intro h0
    rw [h0] at h
    cases h
  simp [fetch, hne, h]

/-- On the SCSE's turn a step is the meaning of the command in SEQ (R11). -/
theorem step_of_turn {s t : State} {i : Instr} (ht : turn s = .scse t) (hf : fetch t = .run i) :
    step s = exec i t := by
  simp [step, ht, hf]

/-- The step of a command that carries a wire row is that row (R94, R104; log 11). -/
theorem exec_of_carriedBy {i j : Instr} {s : State} (hop : s.seq.op = opcodeOf i)
    (h : carriedBy i s.seq.step.toNat s = some j) : exec i s = exec j s ∧ j.isHost = false := by
  unfold carriedBy at h
  split at h
  · next hk =>
    split at h
    · cases h
    · next hr =>
      obtain ⟨c, hc, rfl⟩ := Option.map_eq_some_iff.1 h
      rw [exec_bhInit_send (at_of_step hop hk) (by simpa using hr) hc, exec_wireCmd]
      exact ⟨rfl, isHost_wireCmd c⟩
  · next hk =>
    split at h
    · next hr =>
      obtain ⟨hr, ho⟩ := Bool.and_eq_true_iff.1 hr
      obtain ⟨c, hc, rfl⟩ := Option.map_eq_some_iff.1 h
      rw [exec_bhRead_send (at_of_step hop hk) hr ho hc, exec_wireCmd]
      exact ⟨rfl, isHost_wireCmd c⟩
    · cases h
  · next hk =>
    split at h <;> cases h
    next hr => exact ⟨exec_bmpInit_s0 (at_of_step hop hk) (by simpa using hr), rfl⟩
  · next hk =>
    cases h
    exact ⟨exec_bmpInit_s2 (at_of_step hop hk), rfl⟩
  · next hk =>
    cases h
    exact ⟨exec_bmpInit_s3 (at_of_step hop hk), rfl⟩
  · next hk =>
    split at h <;> cases h
    next hr => exact ⟨exec_bmpReadT_s0 (at_of_step hop hk) hr, rfl⟩
  · next hk =>
    split at h <;> cases h
    next hr => exact ⟨exec_bmpReadP_s0 (at_of_step hop hk) hr, rfl⟩
  · next hk =>
    cases h
    exact ⟨exec_bmpReadP_s1 (at_of_step hop hk), rfl⟩
  · next hk =>
    split at h <;> cases h
    next hr => exact ⟨exec_bmpReadId_s0 (at_of_step hop hk) hr, rfl⟩
  · next hk =>
    split at h <;> cases h
    next hr => exact ⟨exec_bmpReadStatus_s0 (at_of_step hop hk) hr, rfl⟩
  · next hk =>
    split at h <;> cases h
    next hr => exact ⟨exec_bmpReset_s0 (at_of_step hop hk) hr, rfl⟩
  · cases h

/-- A reserved index holds no register (R28, R41). -/
theorem regAt_reserved {i : HostIdx}
    (h : i = 0x06#6 ∨ i = 0x07#6 ∨ (0x0D#6 ≤ i ∧ i ≤ 0x0F#6) ∨ 0x1C#6 ≤ i) : regAt i = none := by
  revert i; decide

/-- A field of `len` bits at bit `start` as a number. -/
theorem toNat_field (cfg : Word) (start len : Nat) :
    (cfg.extractLsb' start len).toNat = cfg.toNat / 2 ^ start % 2 ^ len := by
  rw [BitVec.extractLsb'_toNat, Nat.shiftRight_eq_div_pow]

/-- A bit of a word as a number. -/
theorem getLsbD_iff_div (cfg : Word) (k : Nat) : cfg.getLsbD k = true ↔ cfg.toNat / 2 ^ k % 2 = 1 := by
  rw [BitVec.getLsbD, Nat.testBit_eq_decide_div_mod_eq, decide_eq_true_iff]

/-- The nine wire commands. -/
def wireCmds : List WireCmd :=
  [.powerDown, .powerUp, .reset, .contHigh, .contUhigh, .contLow, .otHigh, .otUhigh, .otLow]

/-- The rows of the wire commands, each with its byte and its settle time (R95 to R103, R132). -/
theorem wireCmd_of_row {i : Instr} {c : Byte} {n : Nat}
    (h : (i, c, n) ∈ [(Instr.bhPowerDown, 0x00#8, 1), (.bhPowerUp, 0x01#8, 1), (.bhReset, 0x07#8, 1),
      (.bhContHigh, 0x10#8, 180), (.bhContUhigh, 0x11#8, 180), (.bhContLow, 0x13#8, 24),
      (.bhOtHigh, 0x20#8, 24), (.bhOtUhigh, 0x21#8, 24), (.bhOtLow, 0x23#8, 24)]) :
    ∃ w ∈ wireCmds, i = w.instr ∧ c = w.byte ∧ settleMs w.byte = some n := by
  revert h
  exact (by decide : ∀ r ∈ [(Instr.bhPowerDown, 0x00#8, 1), (.bhPowerUp, 0x01#8, 1), (.bhReset, 0x07#8, 1),
      (.bhContHigh, 0x10#8, 180), (.bhContUhigh, 0x11#8, 180), (.bhContLow, 0x13#8, 24),
      (.bhOtHigh, 0x20#8, 24), (.bhOtUhigh, 0x21#8, 24), (.bhOtLow, 0x23#8, 24)],
      ∃ w ∈ wireCmds, r.1 = w.instr ∧ r.2.1 = w.byte ∧ settleMs w.byte = some r.2.2) (i, c, n)

end Sys2Proof.Machine
end

section
/-! PROOFS. The statements about dispatch, the host's registers, RST and the wire rows. -/

open Sys2Proof Sys2Proof.Machine

namespace Sys2Proof.Proofs

/-- Settles O1: each of the three turns is the SCSE's, and the opcode that decodes is the one fetched. -/
theorem stepRunsTheCommandInSeq : Obligations.StepRunsTheCommandInSeq := by
  intro s t i hturn hdec
  have hop : decodeOp t.seq.op = some i := (decode_cons_eq_ok_iff.1 hdec).1
  refine ⟨wf_eq_true i, step_of_turn ?_ (fetch_of_decodeOp hop)⟩
  rcases hturn with ⟨hh, rfl⟩ | ⟨rest, hh, rfl⟩ | ⟨rest, hh, hb, rfl⟩
  · exact turn_empty hh
  · simp [turn, hh]
  · simp [turn, hh, hb]

/-- Settles O2: the host's turn by the list's first entry. -/
theorem stepTakesTheHostAction : Obligations.StepTakesTheHostAction := by
  refine fun s rest => ⟨fun i v h => step_write h, fun i h => ?_, fun h => ?_, fun h hb => ?_,
    fun h hidle => ?_⟩
  · simp [step, turn, h]
  · simp [step, turn, h]
  · simp [step, turn, h, hb]
  · simp [step, turn_empty h, fetch_idle hidle]

/-- Settles O3: on the SCSE's turn the step is the fetched command's, which is the row it carries. -/
theorem stepRunsTheCarriedRow : Obligations.StepRunsTheCarriedRow := by
  intro s t j hturn hrow
  unfold carriedRow at hrow
  split at hrow
  · next i hf =>
    rw [step_of_turn hturn hf]
    exact exec_of_carriedBy (fetch_run hf).2.1 hrow
  · cases hrow
  · cases hrow

/-- Settles O8: what a host write does at each of the three indices while it is locked, and elsewhere. -/
theorem droppedWritesChangeNothing : Obligations.DroppedWritesChangeNothing := by
  intro s i v rest hh hcase
  rw [step_write hh]
  rcases hcase with ⟨rfl, hb⟩ | ⟨rfl, hlock⟩ | ⟨rfl, hlock⟩ | ⟨h0, h4, h5⟩
  · exact congrArg _ (hostWrite_cmd_busy (s := { s with host := rest }) hb v)
  · exact congrArg _ ((hostWrite_bhCfg v { s with host := rest }).trans (if_pos hlock))
  · exact congrArg _ ((hostWrite_bmpCfg v { s with host := rest }).trans (if_pos hlock))
  · rw [hostWrite_other h0 h4 h5]

/-- Settles O9: each named index by evaluation, the others hold no register. -/
theorem registerMap : Obligations.RegisterMap := by
  refine fun s => ⟨rfl, rfl, rfl, fun h => ?_, rfl, rfl, rfl, rfl, rfl, rfl, rfl, fun h i => hostView_dig h i,
    fun i hi => ?_, fun i rest h => ?_⟩
  · exact if_pos h
  · rw [hostView, regAt_reserved hi]
  · simp only [step, turn, h]
    rfl

/-- Settles O14: RST is the whole step; the answers by the entry of the call that it cuts. -/
theorem resetAtAnyTime : Obligations.ResetAtAnyTime := by
  intro s rest h
  refine ⟨applyReset { s with host := rest }, by simp [step, turn, h], rfl, rfl, rfl, rfl, rfl, rfl, rfl,
    rfl, rfl, rfl, rfl, rfl, rfl, rfl, rfl, rfl, rfl, fun hcut => ?_, fun cut later hcut hans => ?_⟩
  · change answersAfterCut s.inflight s.answers = s.answers
    rcases answersAfterCut_cases s.inflight s.answers with ⟨t, later, ht, ha, -⟩ | ⟨-, hsame⟩
    · rcases hcut with hnone | hnever
      · exact absurd (hnone.symm.trans ht) nofun
      · exact absurd ha (hnever later)
    · exact hsame
  · change answersAfterCut s.inflight s.answers = later
    rw [hcut, hans, answersAfterCut_never]

/-- Settles O18: the fields as numbers; the nine rows are BhSend of their wire command, followed by that
command's delay. -/
theorem wireCommandsComplete : Obligations.WireCommandsComplete := by
  refine ⟨fun cfg => ⟨fun h => if_neg (by rw [h]; decide), fun h => if_pos h, toNat_field cfg 1 2,
    getLsbD_iff_div cfg 3⟩, fun i c n s rest hrow h => ?_⟩
  obtain ⟨w, -, rfl, rfl, hn⟩ := wireCmd_of_row hrow
  exact ⟨_, (exec_wireCmd w s).trans (bhSend_ok w h), rfl, settleDelay_of hn⟩

/-- Settles O19: the nine rows are BhSend of their wire command, outside BMP_INIT. -/
theorem wireCommandsFail : Obligations.WireCommandsFail := by
  intro i c s k rest hrow hop h
  have hrow' : ∃ w ∈ wireCmds, i = w.instr ∧ c = w.byte :=
    (by decide : ∀ r ∈ [(Instr.bhPowerDown, 0x00#8), (.bhPowerUp, 0x01#8), (.bhReset, 0x07#8),
      (.bhContHigh, 0x10#8), (.bhContUhigh, 0x11#8), (.bhContLow, 0x13#8),
      (.bhOtHigh, 0x20#8), (.bhOtUhigh, 0x21#8), (.bhOtLow, 0x23#8)],
      ∃ w ∈ wireCmds, r.1 = w.instr ∧ r.2 = w.byte) (i, c) hrow
  obtain ⟨w, -, rfl, rfl⟩ := hrow'
  have hother : s.seq.op ≠ 0x4#4 := by
    rcases hop with hop | hop <;> rw [hop] <;> decide
  rw [exec_wireCmd, bhSend_err w hother h]

/-- Settles O27: the fields as numbers; each row is its bus access. -/
theorem registerAccessesComplete : Obligations.RegisterAccessesComplete := by
  refine ⟨fun cfg => ⟨fun h => if_neg (by rw [h]; decide), fun h => if_pos h, toNat_field cfg 1 3,
    toNat_field cfg 4 3, toNat_field cfg 7 3, toNat_field cfg 10 3⟩, fun s rest => ⟨?_, ?_, ?_, ?_, ?_, ?_, ?_, ?_⟩⟩
  · exact fun k h hl => loadCalib_ok h hl
  · exact fun b h => fetchAux_ok .id h
  · exact fun b h => fetchAux_ok .status h
  · exact fun b0 b1 b2 h => fetchAdcP_ok h
  · exact fun b0 b1 b2 h => fetchAdcT_ok h
  · exact fun h => storeReg_ok .reset _ h
  · exact fun h => storeReg_ok .ctrl _ h
  · exact fun h => storeReg_ok .config _ h

end Sys2Proof.Proofs
end

section
/-! PROOFS. Runs of whole commands, one known step after the other (40_bh1750_sequencer R136, R137;
41_bmp280_sequencer R166 to R171), and the failed steps of BMP_INIT (R262). -/

namespace Sys2Proof.Machine

/-- A run at a step of a command whose meaning is known. -/
theorem run_exec {s t : State} {i : Instr} {k n : Nat} (hh : s.host = []) (hi : i.isHost = true)
    (hat : s.at i k) (h : exec i s = .next t) :
    Host.Core.run core (n + 1) s = Host.Core.run core n t :=
  run_of_step ((step_exec hh hi hat.1).trans h)

/-- The settle delay of a wire command is over (R134). -/
theorem settleDelay_over {s : State} {n : Nat} (hn : settleMs s.cLat = some n)
    (h : n ≤ s.timer + s.ticks.headD 1) :
    settleDelay s = .next { s with
      ticks := s.ticks.tail, trace := .delay n :: s.trace, seq := ⟨s.seq.op, s.seq.step + 1⟩, timer := 0 } :=
  (settleDelay_of hn).trans (delayStep_over h)

/-- The light value as the number that LUX holds (R35, R133). -/
theorem lux_eq_ofNat (b0 b1 : Byte) :
    (bhDecode ⟨b0, b1⟩).zeroExtend 32 = BitVec.ofNat 32 (b0.toNat * 256 + b1.toNat) := by
  rw [← bhDecode_toNat]
  exact (BitVec.ofNat_toNat 32 _).symm

theorem op_ne_of_at_bhInit {s : State} {k : Nat} (hat : s.at .bhInit k) : s.seq.op ≠ 0x4#4 := by
  rw [hat.1]
  decide

theorem op_ne_of_at_bhRead {s : State} {k : Nat} (hat : s.at .bhRead k) : s.seq.op ≠ 0x4#4 := by
  rw [hat.1]
  decide

/-- CmdSelect is not defined for `RES = 0b10` (R130). -/
theorem cmdSelect_illegal (op : Bool) : cmdSelect op 0b10#2 = none := rfl

/-- A transport failure as a whole next state, but for the coefficients and the counter of free values,
which a failing construction loses (R248, R262). -/
theorem raise_transport_eq (t : Txn) (k : BusErr) (rest : List Answer) (s : State) :
    ∃ x' n', raise (.transportFailure k) (answered t (.err k) rest s) =
      { errStep s.seq.op t k rest s with x := x', freeCtr := n' } := by
  unfold raise dropCalib
  split
  · exact ⟨_, _, rfl⟩
  · exact ⟨_, _, rfl⟩

/-- The bus steps of BMP_INIT latch nothing before their call (R166). -/
theorem exec_bmpInit_eq_busCall {s : State} (hat : s.at .bmpInit 0 ∨ s.at .bmpInit 2 ∨ s.at .bmpInit 3)
    (hr : s.bmpReady = false) : ∃ t bind, stepTxn s = some t ∧ exec .bmpInit s = busCall t id bind s := by
  rcases hat with hat | hat | hat
  · have hk := at_step (by decide) hat
    exact ⟨_, _, by simp [stepTxn, fetch_at (i := .bmpInit) rfl hat.1, hk, hr, memRead, calLen],
      exec_bmpInit_s0 hat hr⟩
  · have hk := at_step (by decide) hat
    exact ⟨_, _, by simp [stepTxn, fetch_at (i := .bmpInit) rfl hat.1, hk, memWrite], exec_bmpInit_s2 hat⟩
  · have hk := at_step (by decide) hat
    exact ⟨_, _, by simp [stepTxn, fetch_at (i := .bmpInit) rfl hat.1, hk, memWrite], exec_bmpInit_s3 hat⟩

end Sys2Proof.Machine
end

section
/-! PROOFS. The statements about the commands' steps and whole runs. -/

open Sys2Proof Sys2Proof.Machine

namespace Sys2Proof.Proofs

/-- Settles O20: each step by its meaning at that step number. -/
theorem bhInitSteps : Obligations.BhInitSteps := by
  refine fun s => ⟨fun hat hr => ?_, fun hat hr hres => ?_, fun c rest hat hr hc h => ?_,
    fun c k rest hat hr hc h => ?_, fun n hat hn h => ?_, exec_bhInit_s2⟩
  · rw [exec_bhInit_ready hat hr, raise_eq_abortedWith (op_ne_of_at_bhInit hat) rfl, hat.1]
    rfl
  · rw [exec_bhInit_illegal hat hr (hres ▸ cmdSelect_illegal _),
      raise_eq_abortedWith (op_ne_of_at_bhInit hat) rfl, hat.1]
    rfl
  · rw [exec_bhInit_send hat hr hc, bhSend_ok c h]
  · rw [exec_bhInit_send hat hr hc, bhSend_err c (op_ne_of_at_bhInit hat) h, hat.1]
    rfl
  · rw [exec_bhInit_s1 hat, settleDelay_over hn h, hat.1, hat.2]
    rfl

/-- Settles O21: three known steps. -/
theorem bhInitRunsToReady : Obligations.BhInitRunsToReady := by
  intro s c n d rest ts hh hat hr hc hn ha hts hd
  refine Eq.trans (run_exec hh rfl hat ((exec_bhInit_send hat hr hc).trans (bhSend_ok c ha))) ?_
  have hat1 := at_succ (t := { okStep (.write (bhAddr s.bhCfg) [c.byte]) [] rest s with cLat := c.byte })
    hat rfl
  refine Eq.trans (run_exec hh rfl hat1
    ((exec_bhInit_s1 hat1).trans (settleDelay_over hn (by simpa [okStep, hts])))) ?_
  refine Eq.trans (run_exec hh rfl (at_succ hat1 rfl) (exec_bhInit_s2 (at_succ hat1 rfl))) ?_
  simp [run_zero, doneStep, okStep, hts]

/-- Settles O22: each step by its meaning at that step number. -/
theorem bhReadSteps : Obligations.BhReadSteps := by
  refine fun s => ⟨fun hat hr => ?_, fun hat hr ho => ?_, fun c rest hat hr ho hc h => ?_,
    fun c k rest hat hr ho hc h => ?_, fun n hat hn h => ?_, fun b0 b1 rest hat h => ?_,
    fun k rest hat h => ?_, fun hat => ?_⟩
  · rw [exec_bhRead_notReady hat hr, raise_eq_abortedWith (op_ne_of_at_bhRead hat) rfl, hat.1]
    rfl
  · rw [exec_bhRead_skip hat hr ho, jumpTo, hat.1]
    rfl
  · rw [exec_bhRead_send hat hr ho hc, bhSend_ok c h]
  · rw [exec_bhRead_send hat hr ho hc, bhSend_err c (op_ne_of_at_bhRead hat) h, hat.1]
    rfl
  · rw [exec_bhRead_s1 hat, settleDelay_over hn h, hat.1, hat.2]
    rfl
  · rw [exec_bhRead_s2 hat, bhFetch_ok h]
  · rw [exec_bhRead_s2 hat, bhFetch, busCall_eq_errStep (op_ne_of_at_bhRead hat) h, hat.1]
    rfl
  · rw [exec_bhRead_s3 hat, lux_eq_ofNat]

/-- Settles O23: in continuous mode three known steps, in one-time mode four. -/
theorem bhReadRunsToLux : Obligations.BhReadRunsToLux := by
  intro s b0 b1 hh hat hr
  refine ⟨fun rest ho ha => ?_, fun c n d rest ts ho hc hn ha hts hd => ?_⟩
  · refine Eq.trans (run_exec hh rfl hat (exec_bhRead_skip hat hr ho)) ?_
    have hat2 : (jumpTo 2 s).at .bhRead 2 := ⟨hat.1, rfl⟩
    refine Eq.trans (run_exec hh rfl hat2 ((exec_bhRead_s2 hat2).trans (bhFetch_ok ha))) ?_
    refine Eq.trans (run_exec hh rfl (at_succ hat2 rfl) (exec_bhRead_s3 (at_succ hat2 rfl))) ?_
    rw [run_zero, ← lux_eq_ofNat]
    rfl
  · refine Eq.trans (run_exec hh rfl hat ((exec_bhRead_send hat hr ho hc).trans (bhSend_ok c ha))) ?_
    have hat1 := at_succ (t := { okStep (.write (bhAddr s.bhCfg) [c.byte]) [] (.ok [b0, b1] :: rest) s with
      cLat := c.byte }) hat rfl
    refine Eq.trans (run_exec hh rfl hat1
      ((exec_bhRead_s1 hat1).trans (settleDelay_over hn (by simpa [okStep, hts])))) ?_
    refine Eq.trans (run_exec hh rfl (at_succ hat1 rfl)
      ((exec_bhRead_s2 (at_succ hat1 rfl)).trans (bhFetch_ok rfl))) ?_
    refine Eq.trans (run_exec hh rfl (at_succ (at_succ hat1 rfl) rfl)
      (exec_bhRead_s3 (at_succ (at_succ hat1 rfl) rfl))) ?_
    rw [run_zero, ← lux_eq_ofNat]
    simp [doneStep, okStep, hts]

/-- Settles O28: each step by its meaning at that step number; a failed call by the exception as a whole
next state. -/
theorem bmpInitSteps : Obligations.BmpInitSteps := by
  refine fun s => ⟨fun hat hr => ?_, fun k rest hat hr h hl => ?_, fun hat h => ?_, fun rest hat h => ?_,
    fun rest hat h => ?_, exec_bmpInit_s4, fun t k rest hat hr ht h => ?_⟩
  · rw [exec_bmpInit_ready hat hr, raise_eq (not_constructing_of_ready hr), raiseWith_eq_abortedWith rfl,
      hat.1]
    rfl
  · rw [exec_bmpInit_s0 hat hr, loadCalib_ok h hl]
  · rw [exec_bmpInit_s1 hat, delayStep_over h, hat.1, hat.2]
    rfl
  · rw [exec_bmpInit_s2 hat]
    exact storeReg_ok .ctrl _ h
  · rw [exec_bmpInit_s3 hat]
    exact storeReg_ok .config _ h
  · obtain ⟨u, bind, hu, hexec⟩ := exec_bmpInit_eq_busCall hat hr
    obtain rfl : u = t := Option.some.inj (hu.symm.trans ht)
    have hop : s.seq.op = 4#4 := by
      rcases hat with hat | hat | hat <;> exact hat.1
    obtain ⟨x', n', hraise⟩ := raise_transport_eq u k rest s
    refine ⟨x', n', ?_⟩
    rw [hexec, busCall_fails h, id_eq, hraise, hop]
    rfl

/-- Settles O29: five known steps. -/
theorem bmpInitRunsToReady : Obligations.BmpInitRunsToReady := by
  intro s k d rest ts hh hat hr hl ha hts hd
  refine Eq.trans (run_exec hh rfl hat ((exec_bmpInit_s0 hat hr).trans (loadCalib_ok ha hl))) ?_
  have hat1 := at_succ (t := { okStep (.writeRead (bmpAddr s.bmpCfg) [0x88] 24) k
    (.ok [] :: .ok [] :: rest) s with x := calParse k }) hat rfl
  refine Eq.trans (run_exec hh rfl hat1
    ((exec_bmpInit_s1 hat1).trans (delayStep_over (by simpa [okStep, hts])))) ?_
  refine Eq.trans (run_exec hh rfl (at_succ hat1 rfl)
    ((exec_bmpInit_s2 (at_succ hat1 rfl)).trans (storeReg_ok .ctrl _ rfl))) ?_
  refine Eq.trans (run_exec hh rfl (at_succ (at_succ hat1 rfl) rfl)
    ((exec_bmpInit_s3 (at_succ (at_succ hat1 rfl) rfl)).trans (storeReg_ok .config _ rfl))) ?_
  refine Eq.trans (run_exec hh rfl (at_succ (at_succ (at_succ hat1 rfl) rfl) rfl)
    (exec_bmpInit_s4 (at_succ (at_succ (at_succ hat1 rfl) rfl) rfl))) ?_
  simp [run_zero, doneStep, okStep, hts, initEvents]

/-- Settles O35: two known steps each. -/
theorem auxiliaryCommandsRun : Obligations.AuxiliaryCommandsRun := by
  refine fun s hh hr => ⟨fun b rest hat ha => ?_, fun b rest hat ha => ?_, fun rest hat ha => ?_⟩
  · refine Eq.trans (run_exec hh rfl hat ((exec_bmpReadId_s0 hat hr).trans (fetchAux_ok .id ha))) ?_
    exact run_exec (n := 0) hh rfl (at_succ hat rfl) (exec_bmpReadId_s1 (at_succ hat rfl))
  · refine Eq.trans (run_exec hh rfl hat
      ((exec_bmpReadStatus_s0 hat hr).trans (fetchAux_ok .status ha))) ?_
    exact run_exec (n := 0) hh rfl (at_succ hat rfl) (exec_bmpReadStatus_s1 (at_succ hat rfl))
  · refine Eq.trans (run_exec hh rfl hat ((exec_bmpReset_s0 hat hr).trans (storeReg_ok .reset _ ha))) ?_
    exact run_exec (n := 0) hh rfl (at_succ hat rfl) (exec_bmpReset_s1 (at_succ hat rfl))

end Sys2Proof.Proofs
end

section
/-! PROOFS. The fixed-width operations in both overflow modes (42_bmp280_compensation R190 to R195). -/

namespace Sys2Proof.Machine

/-- `fits_N(z)` holds exactly when `wrap_N(z) = z` (R190). -/
theorem fits_iff_wrap {n : Nat} (hn : 0 < n) {z : Int} : fits n z = true ↔ wrap n z = z := by
  refine ⟨wrap_of_fits hn, fun h => ?_⟩
  rw [← h]
  exact fits_wrap hn z

/-- `wrap_N(z)` differs from `z` by a multiple of `2^N` (R190). -/
theorem two_pow_dvd_sub_wrap (n : Nat) (z : Int) : (2 : Int) ^ n ∣ z - wrap n z := by
  have h := Int.dvd_self_sub_bmod (x := z) (m := 2 ^ n)
  rwa [Nat.cast_pow] at h

/-- No other integer of the signed range does (R190). -/
theorem eq_wrap_of_dvd {n : Nat} (hn : 0 < n) {z w : Int} (hlo : -(2 ^ (n - 1)) ≤ w)
    (hhi : w < 2 ^ (n - 1)) (h : (2 : Int) ^ n ∣ z - w) : w = wrap n z := by
  have h2 := two_pow_half hn
  have hp : (0 : Int) < 2 ^ (n - 1) := by positivity
  refine ((Int.bmod_eq_iff (by positivity)).2 ?_).symm
  push_cast
  rw [h2] at h ⊢
  exact ⟨by omega, by omega, by rwa [← dvd_neg, neg_sub]⟩

/-- Under `fault` an operation delivers the exact result or nothing (R195). -/
theorem narrow_fault {n : Nat} (hn : 0 < n) (z : Int) :
    narrow .fault n z = if wrap n z = z then some z else none := by
  by_cases h : fits n z = true
  · rw [narrow_of_fits _ h, if_pos (wrap_of_fits hn h)]
  · rw [narrow_fault_of_not_fits (by simpa using h), if_neg (fun hw => h ((fits_iff_wrap hn).2 hw))]

/-- What an operation delivers, exact or wrapped, is in range (R190, R195). -/
theorem fits_of_narrow {m : OvfMode} {n : Nat} (hn : 0 < n) {z w : Int} (h : narrow m n z = some w) :
    fits n w = true := by
  unfold narrow at h
  split at h
  · next hz => rwa [← Option.some.inj h]
  · cases m
    · rw [← Option.some.inj h]
      exact fits_wrap hn z
    · cases h

/-- Division truncated toward zero, by signs and magnitudes (R193). -/
theorem tdiv_eq_sign_mul (a b : Int) :
    Int.tdiv a b = a.sign * b.sign * (a.natAbs / b.natAbs : Nat) := by
  rw [← Int.sign_mul_natAbs (Int.tdiv a b), Int.sign_tdiv, Int.natAbs_tdiv]
  split
  · next h =>
    have hzero : a.natAbs / b.natAbs = 0 := Nat.div_eq_of_lt h
    rw [hzero]
    simp
  · rfl

/-- The only division of values in range that overflows is `-2^63 / -1` (R193). -/
theorem fits_tdiv {a b : Int} (ha : fits 64 a = true) (hne : ¬ (a = -(2 ^ 63) ∧ b = -1)) :
    fits 64 (Int.tdiv a b) = true := by
  rw [fits_iff] at ha ⊢
  have habs : (Int.tdiv a b).natAbs = a.natAbs / b.natAbs := Int.natAbs_tdiv a b
  have hle : a.natAbs / b.natAbs ≤ a.natAbs := Nat.div_le_self _ _
  rcases lt_or_ge a.natAbs (2 ^ 63) with hsmall | hbig
  · omega
  · have ha' : a = -(2 ^ 63) := by omega
    have hb : b ≠ -1 := fun hb => hne ⟨ha', hb⟩
    rcases le_or_gt b.natAbs 1 with hone | htwo
    · have hb01 : b = 0 ∨ b = 1 := by omega
      rcases hb01 with rfl | rfl
      · simp
      · simpa using ha
    · have hhalf : a.natAbs / b.natAbs ≤ a.natAbs / 2 := Nat.div_le_div_left htwo (by decide)
      omega

end Sys2Proof.Machine
end

section
/-! PROOFS. The statements about the fixed-width operations. -/

open Sys2Proof Sys2Proof.Machine

namespace Sys2Proof.Proofs

/-- Settles O36: range, congruence and uniqueness of the residue. -/
theorem wrapIsTheResidue : Obligations.WrapIsTheResidue := by
  intro n hn z
  have hpos : 0 < n := by rcases hn with rfl | rfl <;> decide
  exact ⟨fits_iff.1 (fits_wrap hpos z), two_pow_dvd_sub_wrap n z,
    fun w hlo hhi h => eq_wrap_of_dvd hpos hlo hhi h, fits_iff_wrap hpos⟩

/-- Settles O37: each operation is the narrowing of its exact result; the division by signs and
magnitudes. -/
theorem fixedWidthOperations : Obligations.FixedWidthOperations := by
  have hpos {n : Nat} (hn : n = 32 ∨ n = 64) : 0 < n := by rcases hn with rfl | rfl <;> decide
  refine ⟨fun n hn a b k op exact hop => ?_, fun n hn z => ⟨narrow_wrap (hpos hn) z, narrow_fault (hpos hn) z⟩,
    fun a k => ⟨sar_le_iff.1 le_rfl, sar_lt_iff.1 (Int.lt_succ _)⟩, by decide, by decide, by decide, by decide,
    fun m a b ha _ _ hne => ?_, by decide, by decide⟩
  · have hnarrow : op = fun m => narrow m n exact := by
      rcases hop with ⟨rfl, rfl⟩ | ⟨rfl, rfl⟩ | ⟨rfl, rfl⟩ | ⟨rfl, rfl⟩ <;> rfl
    rw [hnarrow]
    exact ⟨narrow_wrap (hpos hn) exact, narrow_fault (hpos hn) exact⟩
  · rw [sdivN, narrow_of_fits m (fits_tdiv ha hne), tdiv_eq_sign_mul]

end Sys2Proof.Proofs
end

section
/-! PROOFS. CompT: the three operations that can overflow, what the function delivers in each mode, and its
bounds (42_bmp280_compensation R196, R197). -/

namespace Sys2Proof.Machine

/-- The two results of CompT from the two products it sums (R196). -/
def resultT (t4 t9 : Int) : Int × Int :=
  (sar t4 11 + sar t9 14, sar ((sar t4 11 + sar t9 14) * 5 + 128) 8)

/-- The bounds of `t_fine` and T, for any products in the 32-bit range (R197). -/
theorem resultT_bounds {t4 t9 : Int} (h4 : fits 32 t4 = true) (h9 : fits 32 t9 = true) :
    (-1179648 ≤ (resultT t4 t9).1 ∧ (resultT t4 t9).1 ≤ 1179646) ∧
      -23040 ≤ (resultT t4 t9).2 ∧ (resultT t4 t9).2 ≤ 23040 := by
  rw [fits_iff] at h4 h9
  simp only [resultT, sar]
  omega

/-- For operands in range CompT is its three products and the sum of the two shifted ones: no other
operation can overflow (R197). -/
theorem compT_eq {m : OvfMode} {adcT d1 d2 d3 : Int} (h : inRangeT adcT d1 d2 d3) :
    compT m adcT d1 d2 d3 =
      (narrow m 32 ((sar adcT 3 - d1 * 2) * d2) >>= fun t4 =>
        narrow m 32 ((sar adcT 4 - d1) * (sar adcT 4 - d1)) >>= fun t7 =>
        narrow m 32 (sar t7 12 * d3) >>= fun t9 => some (resultT t4 t9)) := by
  obtain ⟨⟨ha, ha'⟩, ⟨h1, h1'⟩, -, -⟩ := h
  have hs3 : 0 ≤ sar adcT 3 ∧ sar adcT 3 < 2 ^ 17 := ⟨sar_le_iff.2 (by omega), sar_lt_iff.2 (by omega)⟩
  have hs4 : 0 ≤ sar adcT 4 ∧ sar adcT 4 < 2 ^ 16 := ⟨sar_le_iff.2 (by omega), sar_lt_iff.2 (by omega)⟩
  have f2 : fits 32 (d1 * 2 ^ 1) = true := fits_iff.2 (by omega)
  have f3 : fits 32 (sar adcT 3 - d1 * 2 ^ 1) = true := fits_iff.2 (by omega)
  have f6 : fits 32 (sar adcT 4 - d1) = true := fits_iff.2 (by omega)
  unfold compT tempsT shlN subN mulN addN
  rw [bind_narrow m f2, bind_narrow m f3, pow_one]
  cases h4 : narrow m 32 ((sar adcT 3 - d1 * 2) * d2) with
  | none => rfl
  | some t4 =>
    have g4 := fits_of_narrow (by decide) h4
    simp only [Option.bind_eq_bind, Option.bind_some]
    rw [← Option.bind_eq_bind, bind_narrow m f6]
    cases h7 : narrow m 32 ((sar adcT 4 - d1) * (sar adcT 4 - d1)) with
    | none => rfl
    | some t7 =>
      simp only [Option.bind_eq_bind, Option.bind_some]
      cases h9 : narrow m 32 (sar t7 12 * d3) with
      | none => rfl
      | some t9 =>
        have g9 := fits_of_narrow (by decide) h9
        obtain ⟨⟨hlo, hhi⟩, -⟩ := resultT_bounds g4 g9
        simp only [resultT] at hlo hhi
        have f10 : fits 32 (sar t4 11 + sar t9 14) = true := fits_iff.2 (by omega)
        have f11 : fits 32 ((sar t4 11 + sar t9 14) * 5) = true := fits_iff.2 (by omega)
        have f12 : fits 32 ((sar t4 11 + sar t9 14) * 5 + 128) = true := fits_iff.2 (by omega)
        simp only [Option.bind_some]
        rw [narrow_of_fits m f10, Option.bind_some, narrow_of_fits m f11, Option.bind_some,
          narrow_of_fits m f12]
        rfl

/-- Under `wrap` CompT delivers results within its bounds (R195, R197). -/
theorem compT_wrap_bounds {adcT d1 d2 d3 : Int} (h : inRangeT adcT d1 d2 d3) :
    ∃ tf T, compT .wrap adcT d1 d2 d3 = some (tf, T) ∧
      -1179648 ≤ tf ∧ tf ≤ 1179646 ∧ -23040 ≤ T ∧ T ≤ 23040 := by
  have f {z : Int} := fits_wrap (n := 32) (by decide) z
  rw [compT_eq h]
  simp only [narrow_wrap (n := 32) (by decide), Option.bind_eq_bind, Option.bind_some]
  obtain ⟨⟨hlo, hhi⟩, hT⟩ := resultT_bounds (f (z := (sar adcT 3 - d1 * 2) * d2))
    (f (z := sar (wrap 32 ((sar adcT 4 - d1) * (sar adcT 4 - d1))) 12 * d3))
  exact ⟨_, _, rfl, hlo, hhi, hT⟩

/-- Inside NoOvfT CompT is exact in both modes (R197). -/
theorem compT_of_noOvfT (m : OvfMode) {adcT d1 d2 d3 : Int} (h : inRangeT adcT d1 d2 d3)
    (hno : noOvfT adcT d1 d2 d3 = true) :
    compT m adcT d1 d2 d3 = some (resultT ((sar adcT 3 - d1 * 2) * d2)
      (sar ((sar adcT 4 - d1) * (sar adcT 4 - d1)) 12 * d3)) := by
  simp only [noOvfT, Bool.and_eq_true] at hno
  obtain ⟨⟨h4, h7⟩, h9⟩ := hno
  rw [compT_eq h, bind_narrow m h4, bind_narrow m h7, bind_narrow m h9]

/-- Under `fault` CompT delivers nothing exactly outside NoOvfT (R197). -/
theorem compT_fault_eq_none_iff {adcT d1 d2 d3 : Int} (h : inRangeT adcT d1 d2 d3) :
    compT .fault adcT d1 d2 d3 = none ↔ noOvfT adcT d1 d2 d3 = false := by
  rw [compT_eq h, bind_narrow_fault_eq_none, bind_narrow_fault_eq_none, bind_narrow_fault_eq_none]
  simp [noOvfT, or_assoc, -Bool.and_eq_false_imp, Bool.and_eq_false_iff]

/-- The registers and the ADC code are operands in range (R190). -/
theorem inRangeT_of_regs (c : BitVec 20) (x : Calib) :
    inRangeT c.toNat x.digT1.toNat x.digT2.toInt x.digT3.toInt := by
  have hc := c.isLt
  have h1 := x.digT1.isLt
  exact ⟨by omega, by omega, ⟨x.digT2.le_toInt, x.digT2.toInt_lt⟩, x.digT3.le_toInt, x.digT3.toInt_lt⟩

end Sys2Proof.Machine
end

section
/-! PROOFS. The statements about CompT and the commands that read a temperature. -/

open Sys2Proof Sys2Proof.Machine

namespace Sys2Proof.Proofs

/-- Settles O38: inside NoOvfT every operation delivers its exact result. -/
theorem temperatureIsExactInsideNoOvfT : Obligations.TemperatureIsExactInsideNoOvfT :=
  fun m _ _ _ _ h hno => compT_of_noOvfT m h hno

/-- Settles O39: the bounds hold of any products in the 32-bit range; under `fault` the three products
decide. -/
theorem temperatureOverflow : Obligations.TemperatureOverflow :=
  fun _ _ _ _ h => ⟨compT_wrap_bounds h, compT_fault_eq_none_iff h⟩

/-- Settles O31: two known steps; under `wrap` CompT delivers, and its results need fewer than 32 bits. -/
theorem bmpReadTRunsToTemp : Obligations.BmpReadTRunsToTemp := by
  intro s b0 b1 b2 rest hh hat hr hm ha
  have hrange := inRangeT_of_regs (adcUnpack ⟨b0, b1, b2⟩) s.x
  obtain ⟨tf, T, hT, hlo, hhi, hlo', hhi'⟩ := compT_wrap_bounds hrange
  refine ⟨tf, T, ?_, ?_, BitVec.toInt_ofInt_eq_self (by decide) (by omega) (by omega),
    BitVec.toInt_ofInt_eq_self (by decide) (by omega) (by omega)⟩
  · rw [← adcUnpack_toNat]
    exact hT
  · refine Eq.trans (run_exec hh rfl hat ((exec_bmpReadT_s0 hat hr).trans (fetchAdcT_ok ha))) ?_
    have hat1 := at_succ (t := { okStep (.writeRead (bmpAddr s.bmpCfg) [0xFA] 3) [b0, b1, b2] rest s with
      adcTBuf := ⟨b0, b1, b2⟩ }) hat rfl
    refine Eq.trans (run_exec hh rfl hat1 (exec_bmpReadT_s1 hat1)) ?_
    rw [run_zero, compensateT_of_some (tf := tf) (T := T)]
    · rfl
    · change compTOf s.params.ovfMode ⟨b0, b1, b2⟩ s.x = some (tf, T)
      rw [hm]
      exact hT

/-- Settles O33: three known steps; under `wrap` both functions deliver. -/
theorem bmpReadPRunsToPress : Obligations.BmpReadPRunsToPress := by
  intro s a0 a1 a2 b0 b1 b2 rest hh hat hr hm ha
  obtain ⟨tf, T, hT, -⟩ := compT_wrap_bounds (inRangeT_of_regs (adcUnpack ⟨a0, a1, a2⟩) s.x)
  obtain ⟨P, hP⟩ := compP_wrap_isSome (adcUnpack ⟨b0, b1, b2⟩).toNat tf s.x.pCoefs
  refine ⟨tf, T, P, ?_, ?_, ?_⟩
  · rw [← adcUnpack_toNat]
    exact hT
  · rw [← adcUnpack_toNat]
    exact hP
  · refine Eq.trans (run_exec hh rfl hat ((exec_bmpReadP_s0 hat hr).trans (fetchAdcT_ok ha))) ?_
    have hat1 := at_succ (t := { okStep (.writeRead (bmpAddr s.bmpCfg) [0xFA] 3) [a0, a1, a2]
      (.ok [b0, b1, b2] :: rest) s with adcTBuf := ⟨a0, a1, a2⟩ }) hat rfl
    refine Eq.trans (run_exec hh rfl hat1 ((exec_bmpReadP_s1 hat1).trans (fetchAdcP_ok rfl))) ?_
    refine Eq.trans (run_exec hh rfl (at_succ hat1 rfl) (exec_bmpReadP_s2 (at_succ hat1 rfl))) ?_
    rw [run_zero, compensateP_of_some (tf := tf) (T := T) (P := P)]
    · rfl
    · change compTOf s.params.ovfMode ⟨a0, a1, a2⟩ s.x = some (tf, T)
      rw [hm]
      exact hT
    · change compPOf s.params.ovfMode ⟨b0, b1, b2⟩ tf s.x = some P
      rw [hm]
      exact hP

end Sys2Proof.Proofs
end

section
/-! PROOFS. The worked examples, each evaluated by itself. -/

open Sys2Proof Sys2Proof.Machine

namespace Sys2Proof.Proofs

/-- Settles O43: evaluation of the fourteen vectors. -/
theorem compensationExamples : Obligations.CompensationExamples :=
  ⟨by decide, by decide, by decide, by decide, by decide, by decide, by decide, by decide, by decide,
    by decide, by decide, by decide, by decide, by decide⟩

/-- Settles O45: evaluation of the eight bit patterns. -/
theorem conversionExamples : Obligations.ConversionExamples :=
  ⟨by decide, by decide, by decide, by decide, by decide, by decide, by decide, by decide⟩

end Sys2Proof.Proofs
end

section
/-! PROOFS. When CompP is exact, and when it overflows (R199 to R201). -/

namespace Sys2Proof.Machine

/-! ### Magnitudes -/

theorem abs_mul_le {x y A B : Int} (hx : |x| ≤ A) (hy : |y| ≤ B) : |x * y| ≤ A * B := by
  rw [abs_mul]
  exact mul_le_mul hx hy (abs_nonneg y) ((abs_nonneg x).trans hx)

theorem abs_add_le_of_le {x y A B : Int} (hx : |x| ≤ A) (hy : |y| ≤ B) : |x + y| ≤ A + B :=
  (abs_add_le x y).trans (add_le_add hx hy)

theorem abs_mul_two_pow_le {x A : Int} (hx : |x| ≤ A) (k : Nat) : |x * 2 ^ k| ≤ A * 2 ^ k :=
  abs_mul_le hx (abs_of_nonneg (by positivity)).le

theorem abs_sar_le {x A : Int} (hx : |x| ≤ A) (k : Nat) : |sar x k| ≤ A :=
  (Int.abs_ediv_le_abs x _).trans hx

theorem fits_of_abs_le {z B : Int} (h : |z| ≤ B) (hB : B < 2 ^ 63) : fits 64 z = true := by
  obtain ⟨hlo, hhi⟩ := abs_le.1 h
  exact fits_iff.2 ⟨by omega, by omega⟩

theorem abs_le_of_isS16 {z : Int} (h : isS16 z) : |z| ≤ 32768 := by
  obtain ⟨hlo, hhi⟩ := h
  exact abs_le.2 ⟨by omega, by omega⟩

/-! ### Which operations of CompP can overflow, for a `t_fine` in CompT's range -/

theorem abs_v1_le {tf : Int} (hlo : -1179648 ≤ tf) (hhi : tf ≤ 1179646) : |tf - 128000| ≤ 1307648 :=
  abs_le.2 ⟨by omega, by omega⟩

/-- Up to the denominator only `q7` can overflow (R201). -/
theorem exactDen_allFit {tf : Int} {d : PCoefs} (hlo : -1179648 ≤ tf) (hhi : tf ≤ 1179646)
    (hd : d.inRange) : (exactDen tf d).allFit = fits 64 (exactDen tf d).q7 := by
  obtain ⟨-, h2, h3, h4, h5, h6, -⟩ := hd
  have hv1 := abs_v1_le hlo hhi
  have hp1 := abs_mul_le hv1 hv1
  have hp2 := abs_mul_le hp1 (abs_le_of_isS16 h6)
  have hp3 := abs_mul_le hv1 (abs_le_of_isS16 h5)
  have hp4 := abs_mul_two_pow_le hp3 17
  have hp5 := abs_add_le_of_le hp2 hp4
  have hp6 := abs_mul_two_pow_le (abs_le_of_isS16 h4) 35
  have hv2 := abs_add_le_of_le hp5 hp6
  have hq1 := abs_mul_le hp1 (abs_le_of_isS16 h3)
  have hq3 := abs_mul_le hv1 (abs_le_of_isS16 h2)
  have hq4 := abs_mul_two_pow_le hq3 12
  have hq5 := abs_add_le_of_le (abs_sar_le hq1 8) hq4
  have hq6 := abs_add_le_of_le (abs_of_nonneg (a := (140737488355328 : Int)) (by norm_num)).le hq5
  simp only [TempsDen.allFit, exactDen, List.all_cons, List.all_nil, Bool.and_true, Bool.true_and,
    fits_of_abs_le hv1 (by norm_num), fits_of_abs_le hp1 (by norm_num),
    fits_of_abs_le hp2 (by norm_num), fits_of_abs_le hp3 (by norm_num),
    fits_of_abs_le hp4 (by norm_num), fits_of_abs_le hp5 (by norm_num),
    fits_of_abs_le hp6 (by norm_num), fits_of_abs_le hv2 (by norm_num),
    fits_of_abs_le hq1 (by norm_num), fits_of_abs_le hq3 (by norm_num),
    fits_of_abs_le hq4 (by norm_num), fits_of_abs_le hq5 (by norm_num),
    fits_of_abs_le hq6 (by norm_num)]

theorem abs_v2_le {tf : Int} {d : PCoefs} (hlo : -1179648 ≤ tf) (hhi : tf ≤ 1179646)
    (hd : d.inRange) : |(exactDen tf d).v2| ≤ 2 ^ 58 := by
  obtain ⟨-, -, -, h4, h5, h6, -⟩ := hd
  have hv1 := abs_v1_le hlo hhi
  exact (abs_add_le_of_le (abs_add_le_of_le (abs_mul_le (abs_mul_le hv1 hv1) (abs_le_of_isS16 h6))
    (abs_mul_two_pow_le (abs_mul_le hv1 (abs_le_of_isS16 h5)) 17))
    (abs_mul_two_pow_le (abs_le_of_isS16 h4) 35)).trans (by norm_num)

/-- The last sum fits where `s2` does: it is less than `2^55 + 2^19` in magnitude. -/
theorem fits_r {s2 p7 : Int} (h : fits 64 s2 = true) (h7 : isS16 p7) :
    fits 64 (sar s2 8 + p7 * 2 ^ 4) = true := by
  obtain ⟨hlo, hhi⟩ := fits_iff.1 h
  obtain ⟨h7lo, h7hi⟩ := h7
  refine fits_iff.2 ?_
  simp only [sar]
  omega

/-- After the zero test the four shifts and sums `n1`, `n2`, `n3`, `s4` fit, and `r` if `s2` does
(R201). -/
theorem exactQuot_allFit {adcP v2 den : Int} {d : PCoefs} (h0 : 0 ≤ adcP) (h20 : adcP < 2 ^ 20)
    (hv2 : |v2| ≤ 2 ^ 58) (h7 : isS16 d.p7) :
    (exactQuot adcP v2 den d).allFit =
      let b := exactQuot adcP v2 den d
      [b.n4, b.pq, b.c1, b.c2, b.c4, b.s1, b.s2].all (fits 64) := by
  obtain ⟨hv2lo, hv2hi⟩ := abs_le.1 hv2
  have hn1 : fits 64 (1048576 - adcP) = true := fits_iff.2 ⟨by omega, by omega⟩
  have hn2 : fits 64 ((1048576 - adcP) * 2 ^ 31) = true := fits_iff.2 ⟨by omega, by omega⟩
  have hn3 : fits 64 ((1048576 - adcP) * 2 ^ 31 - v2) = true := fits_iff.2 ⟨by omega, by omega⟩
  have hs4 : fits 64 (d.p7 * 2 ^ 4) = true :=
    fits_of_abs_le (abs_mul_two_pow_le (abs_le_of_isS16 h7) 4) (by norm_num)
  simp only [TempsQuot.allFit, exactQuot, List.all_cons, List.all_nil, hn1, hn2, hn3, hs4,
    Bool.and_true, Bool.true_and]
  cases hs2 : fits 64 (exactQuot adcP v2 den d).s2
  · simp only [exactQuot] at hs2
    simp only [hs2, Bool.false_and]
  · simp only [exactQuot] at hs2
    simp only [hs2, fits_r hs2 h7, Bool.true_and]

/-- For a `t_fine` that CompT gives, the bare NoOvfP is that of the eight operations (R201). -/
theorem noOvfPBare_eq_noOvfP {adcP tf : Int} {d : PCoefs} (h0 : 0 ≤ adcP) (h20 : adcP < 2 ^ 20)
    (hlo : -1179648 ≤ tf) (hhi : tf ≤ 1179646) (hd : d.inRange) :
    noOvfPBare adcP tf d = noOvfP adcP tf d := by
  obtain ⟨-, -, -, -, -, -, h7, -⟩ := id hd
  simp only [noOvfPBare, noOvfP, exactDen_allFit hlo hhi hd,
    exactQuot_allFit h0 h20 (abs_v2_le hlo hhi hd) h7]

/-! ### CompP in both modes -/

/-- Under `fault` the steps up to `den` deliver nothing exactly when an exact result does not fit. -/
theorem tempsDen_fault_eq_none {tf : Int} {d : PCoefs} :
    tempsDen .fault tf d = none ↔ (exactDen tf d).allFit = false := by
  constructor
  · intro h
    by_contra hfit
    rw [tempsDen_exact _ (by simpa using hfit)] at h
    cases h
  · intro h
    simp only [TempsDen.allFit, exactDen, List.all_cons, List.all_nil, Bool.and_true,
      Bool.and_eq_false_iff] at h
    simp only [tempsDen, subN, mulN, addN, shlN, bind_narrow_fault_eq_none]
    simpa using h

/-- … and so for the steps after it. -/
theorem tempsQuot_fault_eq_none {adcP v2 den : Int} {d : PCoefs} :
    tempsQuot .fault adcP v2 den d = none ↔ (exactQuot adcP v2 den d).allFit = false := by
  constructor
  · intro h
    by_contra hfit
    rw [tempsQuot_exact _ (by simpa using hfit)] at h
    cases h
  · intro h
    simp only [TempsQuot.allFit, exactQuot, List.all_cons, List.all_nil, Bool.and_true,
      Bool.and_eq_false_iff] at h
    simp only [tempsQuot, subN, mulN, addN, shlN, sdivN, bind_narrow_fault_eq_none]
    simpa using h

/-- Inside NoOvfP CompP is the exact value modulo `2^32`, in both modes (R201). -/
theorem compP_of_noOvfPBare (m : OvfMode) {adcP tf : Int} {d : PCoefs}
    (h : noOvfPBare adcP tf d = true) :
    compP m adcP tf d = some (if (exactDen tf d).den = 0 then 0
      else narrowPressure (exactQuot adcP (exactDen tf d).v2 (exactDen tf d).den d).r) := by
  simp only [noOvfPBare, Bool.and_eq_true, Bool.or_eq_true, decide_eq_true_eq] at h
  obtain ⟨hden, hquot⟩ := h
  simp only [compP, tempsDen_exact m hden]
  split
  · rfl
  · next h0 => rw [tempsQuot_exact m (hquot.resolve_left h0)]; rfl

/-- Under `fault` CompP delivers nothing exactly outside NoOvfP (R201). -/
theorem compP_fault_eq_none_iff {adcP tf : Int} {d : PCoefs} :
    compP .fault adcP tf d = none ↔ noOvfPBare adcP tf d = false := by
  cases hden : (exactDen tf d).allFit
  · simp [compP, noOvfPBare, hden, tempsDen_fault_eq_none.2 hden]
  · by_cases h0 : (exactDen tf d).den = 0
    · simp [compP, noOvfPBare, hden, tempsDen_exact _ hden, h0]
    · simp [compP, noOvfPBare, hden, tempsDen_exact _ hden, h0, tempsQuot_fault_eq_none]

/-- The narrowing to the unsigned Pressure is the residue modulo `2^32` (R194). -/
theorem narrowPressure_toNat (r : Int) : ((narrowPressure r).toNat : Int) = r % 2 ^ 32 := by
  rw [narrowPressure, BitVec.toNat_ofInt]
  exact Int.toNat_of_nonneg (Int.emod_nonneg r (by norm_num))

/-! ### The zero denominator -/

/-- The denominator is the floor of `q7 / 2^33`, in both modes (R199). -/
theorem den_of_tempsDen {m : OvfMode} {tf : Int} {d : PCoefs} {a : TempsDen}
    (h : tempsDen m tf d = some a) : a.den = sar a.q7 33 := by
  unfold tempsDen at h
  iterate 14 obtain ⟨_, -, h⟩ := Option.bind_eq_some_iff.1 h
  cases h
  rfl

/-- A zero denominator gives 0 (R200). -/
theorem compP_of_den_eq_zero {m : OvfMode} {adcP tf : Int} {d : PCoefs} {a : TempsDen}
    (h : tempsDen m tf d = some a) (h0 : a.den = 0) : compP m adcP tf d = some 0 := by
  simp [compP, h, h0]

/-- With `dig_P1 = 0` the denominator is zero (R200). -/
theorem compP_of_p1_eq_zero (m : OvfMode) {adcP tf : Int} {d : PCoefs} (hlo : -1179648 ≤ tf)
    (hhi : tf ≤ 1179646) (hd : d.inRange) (h1 : d.p1 = 0) : compP m adcP tf d = some 0 := by
  have hq7 : (exactDen tf d).q7 = 0 := by simp only [exactDen, h1, mul_zero]
  have hfit : (exactDen tf d).allFit = true := by
    rw [exactDen_allFit hlo hhi hd, hq7]
    rfl
  refine compP_of_den_eq_zero (tempsDen_exact m hfit) ?_
  change sar (exactDen tf d).q7 33 = 0
  rw [hq7]
  rfl

/-- The registers are operands in range (R190). -/
theorem pCoefs_inRange (x : Calib) : x.pCoefs.inRange := by
  have h1 := x.digP1.isLt
  have hs (w : BitVec 16) : isS16 w.toInt := ⟨w.le_toInt, w.toInt_lt⟩
  exact ⟨⟨by simp only [Calib.pCoefs]; omega, by simp only [Calib.pCoefs]; omega⟩, hs _, hs _, hs _,
    hs _, hs _, hs _, hs _, hs _⟩

end Sys2Proof.Machine
end

section
/-! PROOFS. The statements about CompP. -/

open Sys2Proof Sys2Proof.Machine

namespace Sys2Proof.Proofs

/-- Settles O40: the steps deliver their exact results where these fit. -/
theorem pressureOverflow : Obligations.PressureOverflow := by
  intro adcP tf d h0 h20 _ _ hd
  refine ⟨compP_wrap_isSome adcP tf d, compP_fault_eq_none_iff, fun hno m => ?_,
    fun hlo hhi => noOvfPBare_eq_noOvfP h0 h20 hlo hhi hd⟩
  have hP := compP_of_noOvfPBare m hno
  have h47 : (2 : Int) ^ 47 = 140737488355328 := by norm_num
  simp only [h47]
  exact ⟨fun hden => hP.trans (congrArg some (if_pos hden)),
    fun hden => ⟨_, hP.trans (congrArg some (if_neg hden)), narrowPressure_toNat _⟩⟩

/-- Settles O41: `den` is the floor of `q7 / 2^33`, and `q7` is 0 when `dig_P1` is. -/
theorem zeroDenominatorGivesZero : Obligations.ZeroDenominatorGivesZero := by
  refine ⟨fun m adcP tf d a ha h0 h33 => ?_, fun m adcP tf d => compP_of_p1_eq_zero m,
    fun s hat hm h1 => ?_⟩
  · have hden : a.den = 0 := by
      rw [den_of_tempsDen ha]
      exact Int.ediv_eq_zero_of_lt h0 h33
    exact ⟨hden, compP_of_den_eq_zero ha hden⟩
  · obtain ⟨tf, T, hT, hlo, hhi, -⟩ := compT_wrap_bounds (inRangeT_of_regs (adcUnpack s.adcTBuf) s.x)
    have hP : compPOf s.params.ovfMode s.adcPBuf tf s.x = some 0 :=
      compP_of_p1_eq_zero _ hlo hhi (pCoefs_inRange s.x) (by simp [Calib.pCoefs, h1])
    exact ⟨_, (exec_bmpReadP_s2 hat).trans
      (congrArg _ (compensateP_of_some ((congrArg (compTOf · _ _) hm).trans hT) hP))⟩

end Sys2Proof.Proofs
end

section
/-! PROOFS. The reference coefficient set over all ADC codes (R202): bounds of `t_fine` by the tangent and
the secant of the square in it, then bounds of the denominator, the quotient and the rest. -/

namespace Sys2Proof.Machine

/-- A square lies above its tangent at `c`. -/
theorem tangent_le_mul_self (x c : Int) : 2 * c * x - c * c ≤ x * x := by
  nlinarith [mul_self_nonneg (x - c)]

/-- A square lies below its secant on `lo..hi`. -/
theorem mul_self_le_secant {x lo hi : Int} (h1 : lo ≤ x) (h2 : x ≤ hi) :
    x * x ≤ (lo + hi) * x - lo * hi := by
  nlinarith [mul_nonneg (sub_nonneg.2 h1) (sub_nonneg.2 h2)]

section
variable {adcT : Int} (h0 : 0 ≤ adcT) (h20 : adcT < 2 ^ 20)
include h0 h20

/-- The range of `t6` for the reference set. -/
theorem refT_t6_bounds : -27504 ≤ sar adcT 4 - refT1 ∧ sar adcT 4 - refT1 ≤ 38031 := by
  simp only [sar, refT1]
  omega

theorem noOvfT_ref : noOvfT adcT refT1 refT2 refT3 = true := by
  obtain ⟨hlo, hhi⟩ := refT_t6_bounds h0 h20
  have hsq := mul_self_le_secant hlo hhi
  have hpos := mul_self_nonneg (sar adcT 4 - refT1)
  simp only [noOvfT, Bool.and_eq_true, fits_iff]
  generalize (sar adcT 4 - refT1) * (sar adcT 4 - refT1) = t7 at *
  simp only [sar, refT1, refT2, refT3] at *
  omega

/-- The range of `t_fine` for the reference set, the values at the ends of the code range. -/
theorem refT_tFine_bounds :
    -721301 ≤ (resultT ((sar adcT 3 - refT1 * 2) * refT2)
      (sar ((sar adcT 4 - refT1) * (sar adcT 4 - refT1)) 12 * refT3)).1 ∧
    (resultT ((sar adcT 3 - refT1 * 2) * refT2)
      (sar ((sar adcT 4 - refT1) * (sar adcT 4 - refT1)) 12 * refT3)).1 ≤ 960246 := by
  obtain ⟨hlo, hhi⟩ := refT_t6_bounds h0 h20
  have hsecant := mul_self_le_secant hlo hhi
  have htangent := tangent_le_mul_self (sar adcT 4 - refT1) 38031
  generalize (sar adcT 4 - refT1) * (sar adcT 4 - refT1) = t7 at *
  simp only [resultT, sar, refT1, refT2, refT3] at *
  omega

end

section
variable {tf : Int} (hlo : -721301 ≤ tf) (hhi : tf ≤ 960246)
include hlo hhi

/-- `q7` and the denominator of the reference set. -/
theorem refP_den_bounds : fits 64 (exactDen tf refP).q7 = true ∧
    438960198 ≤ (exactDen tf refP).den ∧ (exactDen tf refP).den ≤ 794456077 := by
  have hsecant := mul_self_le_secant (x := tf - 128000) (lo := -849301) (hi := 832246) (by omega) (by omega)
  have htangent := tangent_le_mul_self (tf - 128000) 832246
  rw [fits_iff]
  simp only [exactDen, refP, sar]
  generalize (tf - 128000) * (tf - 128000) = p1 at *
  omega

/-- The dividend of the reference set, for any ADC code. -/
theorem refP_n4_bounds {adcP den : Int} (h0 : 0 ≤ adcP) (h20 : adcP < 2 ^ 20) :
    |(exactQuot adcP (exactDen tf refP).v2 den refP).n4| ≤ 7031000000000000000 := by
  have hsecant := mul_self_le_secant (x := tf - 128000) (lo := -849301) (hi := 832246) (by omega) (by omega)
  have hpos := mul_self_nonneg (tf - 128000)
  rw [abs_le]
  simp only [exactQuot, exactDen, refP]
  generalize (tf - 128000) * (tf - 128000) = p1 at *
  omega

end

/-- A quotient is bounded by the bounds of the dividend and the divisor. -/
theorem abs_tdiv_le {a b A B Q : Int} (ha : |a| ≤ A) (hb : B ≤ b) (hB : 0 < B) (hQ : A < (Q + 1) * B) :
    |Int.tdiv a b| ≤ Q := by
  have hmul : |Int.tdiv a b| * b ≤ |a| := by
    rw [Int.abs_eq_natAbs, Int.natAbs_tdiv, Int.abs_eq_natAbs]
    calc ((a.natAbs / b.natAbs : Nat) : Int) * b = ((a.natAbs / b.natAbs * b.natAbs : Nat) : Int) := by
          rw [Nat.cast_mul, Int.natAbs_of_nonneg (hB.le.trans hb)]
      _ ≤ a.natAbs := by exact_mod_cast Nat.div_mul_le_self _ _
  by_contra hlt
  have hge : Q + 1 ≤ |Int.tdiv a b| := by omega
  nlinarith [abs_nonneg (Int.tdiv a b)]

/-- A shift to the right by `k` divides a bound by `2^k`. -/
theorem abs_sar_le_of_le_mul {x A : Int} {k : Nat} (h : |x| ≤ A * 2 ^ k) : |sar x k| ≤ A := by
  obtain ⟨hlo, hhi⟩ := abs_le.1 h
  have hpos : (0 : Int) < 2 ^ k := by positivity
  exact abs_le.2 ⟨sar_le_iff.2 (by rwa [neg_mul]), Int.le_of_lt_add_one (sar_lt_iff.2 (by linarith))⟩

/-- The operations after the zero test, for a dividend and a divisor within the bounds above. -/
theorem exactQuot_ref_fits {adcP v2 den : Int}
    (hn4 : |(exactQuot adcP v2 den refP).n4| ≤ 7031000000000000000) (hden : 438960198 ≤ den) :
    let b := exactQuot adcP v2 den refP
    [b.n4, b.pq, b.c1, b.c2, b.c4, b.s1, b.s2].all (fits 64) = true := by
  have hpq : |(exactQuot adcP v2 den refP).pq| ≤ 2 ^ 34 := abs_tdiv_le hn4 hden (by norm_num) (by norm_num)
  have hh : |(exactQuot adcP v2 den refP).h| ≤ 2 ^ 21 :=
    abs_sar_le_of_le_mul (k := 13) (hpq.trans (by norm_num))
  have hc1 := abs_mul_le (x := 6000) (abs_of_nonneg (by norm_num)).le hh
  have hc2 := abs_mul_le hc1 hh
  have hc4 := abs_mul_le (x := -14600) (A := 14600) (by norm_num) hpq
  have hs1 := abs_add_le_of_le hpq (abs_sar_le hc2 25)
  have hs2 := abs_add_le_of_le hs1 (abs_sar_le hc4 19)
  simp only [exactQuot, refP] at hn4 hpq hh hc1 hc2 hc4 hs1 hs2
  simp only [exactQuot, refP, List.all_cons, List.all_nil, Bool.and_true,
    fits_of_abs_le hn4 (by norm_num), fits_of_abs_le hpq (by norm_num),
    fits_of_abs_le hc1 (by norm_num), fits_of_abs_le hc2 (by norm_num),
    fits_of_abs_le hc4 (by norm_num), fits_of_abs_le hs1 (by norm_num), fits_of_abs_le hs2 (by norm_num)]

/-- The reference set is in range (R199). -/
theorem refP_inRange : refP.inRange := by
  unfold PCoefs.inRange isS16 refP
  decide

/-- NoOvfP holds of the reference set (R202). -/
theorem noOvfP_ref {adcP tf : Int} (h0 : 0 ≤ adcP) (h20 : adcP < 2 ^ 20) (hlo : -721301 ≤ tf)
    (hhi : tf ≤ 960246) : noOvfP adcP tf refP = true := by
  obtain ⟨hq7, hden, -⟩ := refP_den_bounds hlo hhi
  simp only [noOvfP, hq7, Bool.true_and, exactQuot_ref_fits (refP_n4_bounds hlo hhi h0 h20) hden,
    Bool.or_true]

end Sys2Proof.Machine
end

section
/-! PROOFS. The statement about the reference set. -/

open Sys2Proof Sys2Proof.Machine

namespace Sys2Proof.Proofs

/-- Settles O42: bounds of `t_fine` for all `adc_T`, then bounds of `den` and the quotient. -/
theorem referenceSetNeverOverflows : Obligations.ReferenceSetNeverOverflows := by
  intro adcT adcP hT0 hT20 hP0 hP20
  have hin : inRangeT adcT refT1 refT2 refT3 := by
    unfold inRangeT refT1 refT2 refT3
    omega
  obtain ⟨hlo, hhi⟩ := refT_tFine_bounds hT0 hT20
  have hno := noOvfP_ref hP0 hP20 hlo hhi
  obtain ⟨hq7, hden⟩ := refP_den_bounds hlo hhi
  have hlo' := le_trans (by norm_num : (-1179648 : Int) ≤ -721301) hlo
  have hhi' := le_trans hhi (by norm_num : (960246 : Int) ≤ 1179646)
  have hbare := (noOvfPBare_eq_noOvfP hP0 hP20 hlo' hhi' refP_inRange).trans hno
  exact ⟨noOvfT_ref hT0 hT20, _, _, compT_of_noOvfT _ hin (noOvfT_ref hT0 hT20), hno,
    ⟨_, compP_of_noOvfPBare _ hbare, compP_of_noOvfPBare _ hbare⟩,
    _, tempsDen_exact _ ((exactDen_allFit hlo' hhi' refP_inRange).trans hq7), hden⟩

end Sys2Proof.Proofs
end

section
/-! PROOFS. `nearestFloat` is correctly rounded (43_value_types R232): in units of the last place the result
is the integer nearest the quotient, and a competitor is an integer too or lies below the quotient's
binade. -/

namespace Sys2Proof.Machine

/-! ### The nearest integer -/

/-- The integer chosen is within one half, and even at one half. -/
theorem abs_roundEven_sub_le (n : Nat) {d : Nat} (hd : 0 < d) :
    |(roundEven n d : ℚ) - n / d| ≤ 1 / 2 ∧
      (|(roundEven n d : ℚ) - n / d| = 1 / 2 → roundEven n d % 2 = 0) := by
  have hd' : (0 : ℚ) < d := by exact_mod_cast hd
  have hr0 : (0 : ℚ) ≤ (n % d : Nat) / d := by positivity
  have hy : (n : ℚ) / d = (n / d : Nat) + (n % d : Nat) / d := by
    have hn : (n : ℚ) = d * (n / d : Nat) + (n % d : Nat) := by exact_mod_cast (Nat.div_add_mod n d).symm
    rw [div_eq_iff hd'.ne', add_mul, div_mul_cancel₀ _ hd'.ne', hn]
    ring
  have hlow (h : 2 * (n % d) < d) : ((n % d : Nat) : ℚ) / d < 1 / 2 := by
    have h' : 2 * ((n % d : Nat) : ℚ) < d := by exact_mod_cast h
    rw [div_lt_iff₀ hd']
    linarith
  have hhigh (h : d < 2 * (n % d)) : 1 / 2 < ((n % d : Nat) : ℚ) / d := by
    have h' : (d : ℚ) < 2 * (n % d : Nat) := by exact_mod_cast h
    rw [lt_div_iff₀ hd']
    linarith
  have htie (h : 2 * (n % d) = d) : ((n % d : Nat) : ℚ) / d = 1 / 2 := by
    have h' : 2 * ((n % d : Nat) : ℚ) = d := by exact_mod_cast h
    rw [div_eq_iff hd'.ne']
    linarith
  have hr1 : ((n % d : Nat) : ℚ) / d < 1 := (div_lt_one hd').2 (by exact_mod_cast Nat.mod_lt n hd)
  rw [hy]
  generalize ((n % d : Nat) : ℚ) / d = t at *
  have hdown : |((n / d : Nat) : ℚ) - ((n / d : Nat) + t)| = t := by
    rw [sub_add_cancel_left, abs_neg, abs_of_nonneg hr0]
  have hup : |((n / d + 1 : Nat) : ℚ) - ((n / d : Nat) + t)| = 1 - t := by
    rw [Nat.cast_add_one, add_sub_add_left_eq_sub, abs_of_pos (by linarith)]
  simp only [roundEven]
  split
  · next h => rw [hdown]; exact ⟨(hlow h).le, fun heq => absurd heq (hlow h).ne⟩
  · split
    · next h =>
      have := hhigh h
      rw [hup]
      exact ⟨by linarith, fun heq => absurd heq (by linarith)⟩
    · next h1 h2 =>
      have := htie (by omega)
      split
      · next heven => rw [hdown]; exact ⟨by linarith, fun _ => heven⟩
      · rw [hup]; exact ⟨by linarith, fun _ => by omega⟩

/-- Every other integer is at least one half away. -/
theorem half_le_abs_sub {y : ℚ} {m k : Int} (hm : |(m : ℚ) - y| ≤ 1 / 2) (hk : k ≠ m) :
    1 / 2 ≤ |(k : ℚ) - y| := by
  have h1 : (1 : ℚ) ≤ |(k : ℚ) - m| := by exact_mod_cast Int.one_le_abs (sub_ne_zero.2 hk)
  have h2 := abs_sub_le (k : ℚ) y m
  rw [abs_sub_comm y] at h2
  linarith

/-- An integer within one half of `y` is nearest among the integers and the numbers below an integer
`N ≤ y`; another of these is as near only at one half. -/
theorem nearest_of_abs_sub_le_half {y z : ℚ} {m N : Int} (hm : |(m : ℚ) - y| ≤ 1 / 2) (hN : (N : ℚ) ≤ y)
    (hz : (∃ k : Int, z = k) ∨ z < N) :
    |(m : ℚ) - y| ≤ |z - y| ∧ (|(m : ℚ) - y| = |z - y| → (m : ℚ) ≠ z → |(m : ℚ) - y| = 1 / 2) := by
  have hint (k : Int) : |(m : ℚ) - y| ≤ |(k : ℚ) - y| := by
    by_cases hk : k = m
    · rw [hk]
    · exact hm.trans (half_le_abs_sub hm hk)
  rcases hz with ⟨k, rfl⟩ | hz
  · refine ⟨hint k, fun heq hne => le_antisymm hm ?_⟩
    rw [heq]
    exact half_le_abs_sub hm (fun h => hne (by rw [h]))
  · have hlt : |(m : ℚ) - y| < |z - y| := by
      refine (hint N).trans_lt ?_
      rw [abs_of_nonpos (by linarith), abs_of_nonpos (by linarith)]
      linarith
    exact ⟨hlt.le, fun heq => absurd heq hlt.ne⟩

/-! ### The binade of a quotient -/

theorem scale_snd_pos (n : Nat) {d : Nat} (hd : 0 < d) (k : Int) : 0 < (scale n d k).2 := by
  cases k with
  | ofNat k => exact hd
  | negSucc k => exact Nat.mul_pos hd (by positivity)

theorem scale_div (n d : Nat) (k : Int) :
    ((scale n d k).1 : ℚ) / (scale n d k).2 = n / d * 2 ^ k := by
  cases k with
  | ofNat k => simp [scale]; ring
  | negSucc k => simp [scale, zpow_negSucc]; ring

/-- The comparison of the scaled quotient with one. -/
theorem scale_snd_le_fst_iff (n : Nat) {d : Nat} (hd : 0 < d) (k : Int) :
    (scale n d (-k)).2 ≤ (scale n d (-k)).1 ↔ (2 : ℚ) ^ k ≤ n / d := by
  have hpos : (0 : ℚ) < (scale n d (-k)).2 := by exact_mod_cast scale_snd_pos n hd (-k)
  rw [← @Nat.cast_le ℚ, ← one_le_div hpos, scale_div, zpow_neg, ← div_eq_mul_inv,
    one_le_div (by positivity)]

/-- `log2Ratio` is the exponent of the binade of `n / d`. -/
theorem log2Ratio_bounds {n d : Nat} (hn : 0 < n) (hd : 0 < d) :
    (2 : ℚ) ^ log2Ratio n d ≤ n / d ∧ (n / d : ℚ) < 2 ^ (log2Ratio n d + 1) := by
  have hn1 : (2 : ℚ) ^ n.log2 ≤ n := by exact_mod_cast Nat.log2_self_le hn.ne'
  have hn2 : (n : ℚ) < 2 ^ (n.log2 + 1) := by exact_mod_cast Nat.lt_log2_self
  have hd1 : (2 : ℚ) ^ d.log2 ≤ d := by exact_mod_cast Nat.log2_self_le hd.ne'
  have hd2 : (d : ℚ) < 2 ^ (d.log2 + 1) := by exact_mod_cast Nat.lt_log2_self
  have hd' : (0 : ℚ) < d := by exact_mod_cast hd
  have hpow (a b : Nat) : (2 : ℚ) ^ a / 2 ^ b = 2 ^ ((a : Int) - b) := by
    rw [zpow_sub₀ two_ne_zero, zpow_natCast, zpow_natCast]
  have hlow : (2 : ℚ) ^ ((n.log2 : Int) - (d.log2 + 1 : Nat)) ≤ n / d := by
    rw [← hpow]
    exact div_le_div₀ (Nat.cast_nonneg n) hn1 hd' hd2.le
  have hhigh : (n / d : ℚ) < 2 ^ (((n.log2 + 1 : Nat) : Int) - d.log2) := by
    rw [← hpow]
    exact div_lt_div₀ hn2 hd1 (by positivity) (by positivity)
  simp only [log2Ratio]
  split
  · next h =>
    refine ⟨(scale_snd_le_fst_iff n hd _).1 h, ?_⟩
    convert hhigh using 2
    push_cast
    ring
  · next h =>
    rw [scale_snd_le_fst_iff n hd, not_le] at h
    refine ⟨?_, by simpa using h⟩
    convert hlow using 2
    push_cast
    ring

/-! ### The nearest float -/

/-- The sign of a float, as a factor. -/
def signFactor (neg : Bool) : ℚ := if neg then -1 else 1

theorem abs_signFactor_mul (neg : Bool) (a : ℚ) : |signFactor neg * a| = |a| := by
  cases neg <;> simp [signFactor]

theorem signFactor_mul_self (neg : Bool) (a : ℚ) : signFactor neg * (signFactor neg * a) = a := by
  cases neg <;> simp [signFactor]

/-- `v` is a float of format `f` nearest `x`, with an even significand in a tie (R232). -/
def CorrectlyRounded (f : FloatFormat) (v : FloatVal) (x : ℚ) : Prop :=
  holdsIn f v ∧ ∀ w : FloatVal, holdsIn f w → |v.toRat - x| ≤ |w.toRat - x| ∧
    (|v.toRat - x| = |w.toRat - x| → v.toRat ≠ w.toRat → v.mant % 2 = 0)

/-- In units of `2^e` a float of the format is an integer, or is below the significands of `2^e`. -/
theorem toRat_units {f : FloatFormat} {w : FloatVal} (hw : holdsIn f w) (neg : Bool) (e : Int) :
    (∃ k : Int, signFactor neg * w.toRat = k * 2 ^ e) ∨
      signFactor neg * w.toRat < (2 ^ f.fracBits : Int) * 2 ^ e := by
  rcases le_or_gt e w.exp with he | he
  · refine .inl ⟨(if neg then -1 else 1) * (if w.neg then -1 else 1) * w.mant * 2 ^ (w.exp - e).toNat, ?_⟩
    have hpow : (2 : ℚ) ^ w.exp = 2 ^ (w.exp - e).toNat * 2 ^ e := by
      rw [← zpow_natCast, Int.toNat_of_nonneg (by omega), ← zpow_add₀ two_ne_zero]
      congr 1
      omega
    rw [FloatVal.toRat, signFactor, hpow]
    push_cast
    ring
  · right
    have hm : (w.mant : ℚ) < 2 ^ (f.fracBits + 1) := by exact_mod_cast hw
    have hpow : (2 : ℚ) ^ e = 2 ^ (e - 1) * 2 := by
      rw [← zpow_add_one₀ two_ne_zero]
      congr 1
      omega
    have hexp : (2 : ℚ) ^ w.exp ≤ 2 ^ (e - 1) := zpow_le_zpow_right₀ one_le_two (by omega)
    calc signFactor neg * w.toRat ≤ |signFactor neg * w.toRat| := le_abs_self _
      _ = w.mant * 2 ^ w.exp := by
        have h : w.toRat = signFactor w.neg * (w.mant * 2 ^ w.exp) := mul_assoc _ _ _
        rw [abs_signFactor_mul, h, abs_signFactor_mul, abs_of_nonneg (by positivity)]
      _ < 2 ^ (f.fracBits + 1) * 2 ^ (e - 1) := mul_lt_mul hm hexp (by positivity) (by positivity)
      _ = (2 ^ f.fracBits : Int) * 2 ^ e := by
        rw [hpow]
        push_cast
        ring

/-- A float whose significand is the rounded quotient in units of `2^e` is correctly rounded, for a
quotient in the binade of these units. -/
theorem correctlyRounded_of_units {f : FloatFormat} {v : FloatVal} {neg : Bool} {m : Nat} {e : Int}
    {y : ℚ} (hv : v.toRat = signFactor neg * (m * 2 ^ e)) (hmant : holdsIn f v)
    (hm : |(m : ℚ) - y| ≤ 1 / 2) (heven : |(m : ℚ) - y| = 1 / 2 → v.mant % 2 = 0)
    (hlow : (2 : ℚ) ^ f.fracBits ≤ y) : CorrectlyRounded f v (signFactor neg * (y * 2 ^ e)) := by
  have hpos : (0 : ℚ) < 2 ^ e := by positivity
  refine ⟨hmant, fun w hw => ?_⟩
  have hz : (∃ k : Int, signFactor neg * w.toRat / 2 ^ e = k) ∨
      signFactor neg * w.toRat / 2 ^ e < (2 ^ f.fracBits : Int) := by
    simpa only [div_eq_iff hpos.ne', div_lt_iff₀ hpos] using toRat_units hw neg e
  have hv' : |v.toRat - signFactor neg * (y * 2 ^ e)| = |((m : Int) : ℚ) - y| * 2 ^ e := by
    rw [hv, ← mul_sub, abs_signFactor_mul, ← sub_mul, abs_mul, abs_of_pos hpos, Int.cast_natCast]
  have hw' : |w.toRat - signFactor neg * (y * 2 ^ e)| = |signFactor neg * w.toRat / 2 ^ e - y| * 2 ^ e := by
    rw [← abs_signFactor_mul neg, mul_sub, signFactor_mul_self, ← abs_of_pos hpos, ← abs_mul, sub_mul,
      abs_of_pos hpos, div_mul_cancel₀ _ hpos.ne']
  obtain ⟨hle, htie⟩ := nearest_of_abs_sub_le_half (m := m) (by rwa [Int.cast_natCast])
    (by exact_mod_cast hlow) hz
  rw [hv', hw']
  refine ⟨mul_le_mul_of_nonneg_right hle hpos.le, fun heq hne => heven ?_⟩
  refine htie (mul_right_cancel₀ hpos.ne' heq) fun hmz => hne ?_
  rw [Int.cast_natCast, eq_div_iff hpos.ne'] at hmz
  rw [hv, hmz, signFactor_mul_self]

/-- The quotient in units of the last place of its binade (R232). -/
theorem scaled_bounds (f : FloatFormat) {n d : Nat} (hn : 0 < n) (hd : 0 < d) :
    (2 : ℚ) ^ f.fracBits ≤ n / d * 2 ^ (-(log2Ratio n d - f.fracBits)) ∧
      (n / d : ℚ) * 2 ^ (-(log2Ratio n d - f.fracBits)) < 2 ^ (f.fracBits + 1) := by
  obtain ⟨hlow, hhigh⟩ := log2Ratio_bounds hn hd
  have hpos : (0 : ℚ) < 2 ^ (log2Ratio n d - f.fracBits) := by positivity
  rw [zpow_neg, ← div_eq_mul_inv, le_div_iff₀ hpos, div_lt_iff₀ hpos, ← zpow_natCast, ← zpow_natCast,
    ← zpow_add₀ two_ne_zero, ← zpow_add₀ two_ne_zero]
  have hexp : ((f.fracBits + 1 : Nat) : Int) + (log2Ratio n d - f.fracBits) = log2Ratio n d + 1 := by
    omega
  rw [hexp, add_sub_cancel]
  exact ⟨hlow, hhigh⟩

theorem nearestFloat_correctlyRounded {f : FloatFormat} (hf : 0 < f.fracBits) (neg : Bool) (n : Nat)
    {d : Nat} (hd : 0 < d) : CorrectlyRounded f (nearestFloat f neg n d) (signFactor neg * (n / d)) := by
  rcases Nat.eq_zero_or_pos n with rfl | hn
  · refine ⟨by simp [nearestFloat, holdsIn], fun w _ => ⟨?_, fun _ _ => rfl⟩⟩
    simp [nearestFloat, FloatVal.toRat]
  · obtain ⟨hlow, hhigh⟩ := scaled_bounds f hn hd
    set e := log2Ratio n d - f.fracBits with he
    have hd' := scale_snd_pos n hd (-e)
    obtain ⟨hm, heven⟩ := abs_roundEven_sub_le (scale n d (-e)).1 hd'
    rw [scale_div] at hm heven
    have hx : (n / d : ℚ) = n / d * 2 ^ (-e) * 2 ^ e := by
      rw [mul_assoc, ← zpow_add₀ two_ne_zero, neg_add_cancel, zpow_zero, mul_one]
    rw [hx]
    simp only [nearestFloat, if_neg hn.ne', ← he]
    split
    · next hcarry =>
      have hev : 2 ^ f.fracBits % 2 = 0 := Nat.mod_eq_zero_of_dvd (dvd_pow_self 2 hf.ne')
      refine correctlyRounded_of_units ?_ ?_ hm (fun _ => hev) hlow
      · rw [hcarry, FloatVal.toRat, zpow_add_one₀ two_ne_zero, signFactor]
        push_cast
        ring
      · exact Nat.pow_lt_pow_right one_lt_two (Nat.lt_succ_self _)
    · next hcarry =>
      refine correctlyRounded_of_units (mul_assoc _ _ _) ?_ hm heven hlow
      have hle : (roundEven (scale n d (-e)).1 (scale n d (-e)).2 : ℚ) < 2 ^ (f.fracBits + 1) + 1 := by
        have := (abs_le.1 hm).2
        linarith
      have hle' : roundEven (scale n d (-e)).1 (scale n d (-e)).2 < 2 ^ (f.fracBits + 1) + 1 := by
        exact_mod_cast hle
      exact lt_of_le_of_ne (Nat.le_of_lt_succ hle') hcarry

/-- A signed word is its sign times its magnitude (R230). -/
theorem toInt_eq_signFactor_mul (w : Word) : (w.toInt : ℚ) = signFactor w.msb * w.toInt.natAbs := by
  rw [Nat.cast_natAbs, Int.cast_abs]
  cases hs : w.msb
  · have h : (0 : ℚ) ≤ w.toInt := by exact_mod_cast BitVec.toInt_nonneg_of_msb_false hs
    simp [signFactor, abs_of_nonneg h]
  · have h : (w.toInt : ℚ) < 0 := by exact_mod_cast BitVec.toInt_neg_of_msb_true hs
    simp [signFactor, abs_of_neg h]

end Sys2Proof.Machine
end

section
/-! PROOFS. The statement about the display conversions. -/

open Sys2Proof Sys2Proof.Machine

namespace Sys2Proof.Proofs

/-- Settles O44: both conversions are `nearestFloat` of the sign and the exact quotient. -/
theorem conversionsAreCorrectlyRounded : Obligations.ConversionsAreCorrectlyRounded := by
  intro f hf
  have hfrac : 0 < f.fracBits := lt_of_lt_of_le (by decide) hf.2
  constructor
  · rintro t _ rfl
    have h := nearestFloat_correctlyRounded hfrac t.raw.msb t.raw.toInt.natAbs (d := 100) (by decide)
    rw [← mul_div_assoc, ← toInt_eq_signFactor_mul] at h
    exact h
  · rintro p _ rfl
    have h := nearestFloat_correctlyRounded hfrac false p.raw.toNat (d := 25600) (by decide)
    rwa [show signFactor false = 1 from rfl, one_mul] at h

end Sys2Proof.Proofs
end
